-- ==== Sys2Proof/Word.lean ====
section
/-! DEFINITION. The two machine words of the block: every port register is 32 bits wide
(R25 to R28), every byte of host memory 8 bits (R57). -/

namespace Sys2Proof

/-- A `uint32`: a port register, a command word, a received word (R6, R11). -/
abbrev Word := BitVec 32

/-- A byte of host memory (R57). -/
abbrev Byte := BitVec 8

end Sys2Proof
end

