-- ==== Sys2Proof/Syntax.lean ====
section
/-! DEFINITION. The six commands of spec/opcode_table.json (R77). -/

namespace Sys2Proof

/-- The commands, one constructor per row of the opcode map (R77). The only operand that the
command word itself carries is CONFIGURE's stereo flag `S` (R75, R76); every other operand stands
in an operand register of the port. -/
inductive Instr where
  /-- `begin() -> bool` (R110). -/
  | begin
  /-- `end()` (R118). -/
  | end_
  /-- `configure(sampleRateHz, stereo) -> bool`; `stereo` is bit 8 of the word (R127). -/
  | configure (stereo : Bool)
  /-- `read() -> uint32` (R146). -/
  | read
  /-- `read(buffer, count) -> bool` (R149). -/
  | readBuf
  /-- `getSerializerIndex() -> uint8` (R123). -/
  | getSerIndex
  deriving DecidableEq, Repr

end Sys2Proof
end

