-- ==== Sys2Proof/WellFormed.lean ====
section
/-! DEFINITION. What a well-formed command is: the three checks of the command word's format
(R75, R82), on the fields of a word, and the same said of a term of `Instr`. -/

namespace Sys2Proof

/-- The fields of a command word (R75). -/
structure CommandFields where
  /-- `wd[7:0]`, selects the command. -/
  opcode : BitVec 8
  /-- `wd[8]`, the stereo flag. -/
  s : Bool
  /-- `wd[31:9]`, reserved. -/
  rsv : BitVec 23
  deriving DecidableEq, Repr

/-- `RSV` must be 0: "Reserved bits are never ignored" (R82). -/
def CommandFields.rsvZero (f : CommandFields) : Bool := f.rsv == 0

/-- `S` is meaningful only for CONFIGURE and must be 0 for every other opcode (R75). -/
def CommandFields.stereoAllowed (f : CommandFields) : Bool := !f.s || f.opcode == 0x03

/-- The assigned opcodes are `0x01` to `0x06` (R77, R81). -/
def CommandFields.opcodeAssigned (f : CommandFields) : Bool :=
  decide (1 ≤ f.opcode.toNat ∧ f.opcode.toNat ≤ 6)

/-- A word's fields are those of one of the six commands. -/
def CommandFields.wf (f : CommandFields) : Bool :=
  f.rsvZero && f.stereoAllowed && f.opcodeAssigned

/-- The fields a command is written with (R77). -/
def Instr.commandFields : Instr → CommandFields
  | .begin => ⟨0x01, false, 0⟩
  | .end_ => ⟨0x02, false, 0⟩
  | .configure stereo => ⟨0x03, stereo, 0⟩
  | .read => ⟨0x04, false, 0⟩
  | .readBuf => ⟨0x05, false, 0⟩
  | .getSerIndex => ⟨0x06, false, 0⟩

/-- A command is well formed when its fields pass the three checks. -/
def Instr.wf (i : Instr) : Bool := i.commandFields.wf

end Sys2Proof
end

