-- ==== Sys2Proof/Decode.lean ====
section
/-! DEFINITION. Decoding a command word (R78), total on all `2^32` words and refusing by name; then
the encoder (R75, R77), and each constructor's decoding shown on a word written out from the map. -/

namespace Sys2Proof

/-- Why a word is `ILLEGAL` (R81, R82). All three are one thing to the host, `E_ILLEGAL`. -/
inductive DecodeError where
  /-- `RSV` is not 0 (R82). -/
  | reservedBits
  /-- `S` is 1 on an opcode other than CONFIGURE's (R82). -/
  | stereoNotAllowed
  /-- The opcode is none of `0x01` to `0x06` (R81). -/
  | unassignedOpcode
  deriving DecidableEq, Repr

/-- `OPCODE`, bits 7 to 0 (R75). -/
def opcodeField (wd : Word) : BitVec 8 := wd.extractLsb' 0 8

/-- `S`, bit 8 (R75). -/
def stereoField (wd : Word) : Bool := wd.getLsbD 8

/-- `RSV`, bits 31 to 9 (R75). -/
def reservedField (wd : Word) : BitVec 23 := wd.extractLsb' 9 23

/-- The word's fields (R75). -/
def fieldsOf (wd : Word) : CommandFields := ⟨opcodeField wd, stereoField wd, reservedField wd⟩

/-- `decode`, check by check in the order of R78. -/
def decode (wd : Word) : Except DecodeError Instr :=
  if reservedField wd ≠ 0 then .error .reservedBits
  else if opcodeField wd = 0x03 then .ok (.configure (stereoField wd))
  else if stereoField wd then .error .stereoNotAllowed
  else if opcodeField wd = 0x01 then .ok .begin
  else if opcodeField wd = 0x02 then .ok .end_
  else if opcodeField wd = 0x04 then .ok .read
  else if opcodeField wd = 0x05 then .ok .readBuf
  else if opcodeField wd = 0x06 then .ok .getSerIndex
  else .error .unassignedOpcode

/-- A word from its fields: `RSV ++ S ++ OPCODE` (R75). -/
def wordOf (f : CommandFields) : Word :=
  f.rsv ++ (BitVec.ofBool f.s ++ f.opcode)

/-- The word of a command (R77). -/
def encode (i : Instr) : Word := wordOf i.commandFields

/-- What the decoder reads from a command of `nbits` bits numbered from the least significant bit of
its one word. A command is exactly one 32-bit word (R74): bits above `nbits` are 0, and a number
that needs more than 32 bits is no command word. -/
def decodeTableWord (nbits w : Nat) : Option Instr :=
  if w < 2 ^ nbits ∧ w < 2 ^ 32 then (decode (BitVec.ofNat 32 w)).toOption else none

/-! Each constructor from its word in R77's map. -/

theorem decode_begin_word : decode 0x00000001 = .ok .begin := by decide
theorem decode_end_word : decode 0x00000002 = .ok .end_ := by decide
theorem decode_configure_mono_word : decode 0x00000003 = .ok (.configure false) := by decide
theorem decode_configure_stereo_word : decode 0x00000103 = .ok (.configure true) := by decide
theorem decode_read_word : decode 0x00000004 = .ok .read := by decide
theorem decode_readBuf_word : decode 0x00000005 = .ok .readBuf := by decide
theorem decode_getSerIndex_word : decode 0x00000006 = .ok .getSerIndex := by decide

end Sys2Proof
end

