-- ==== Sys2Proof/Machine/Registers.lean ====
section
/-! DEFINITION. The typed fields of the engine registers, the generators and the collaborator
operations (R33 to R40, R178). The source gives no bit layout, so none is given here (R56). -/

namespace Sys2Proof.Machine

/-- A clock-unit or serializer-unit index: 0 or 1 (R6). -/
inductive UnitIx where
  | u0
  | u1
  deriving DecidableEq, Repr, Inhabited

/-- The index as a number. -/
def UnitIx.toNat : UnitIx → Nat
  | .u0 => 0
  | .u1 => 1

/-- One thing per unit index. -/
structure Pair (α : Type) where
  u0 : α
  u1 : α
  deriving DecidableEq, Repr, Inhabited

def Pair.get {α : Type} (p : Pair α) : UnitIx → α
  | .u0 => p.u0
  | .u1 => p.u1

def Pair.set {α : Type} (p : Pair α) (x : UnitIx) (a : α) : Pair α :=
  match x with
  | .u0 => { p with u0 := a }
  | .u1 => { p with u1 := a }

/-- The names of the synchronised `CTRL` fields (R33). -/
inductive CtrlField where
  | swrst
  | enable
  | cken (c : UnitIx)
  | seren (m : UnitIx)
  deriving DecidableEq, Repr

/-- One thing per `CTRL` field: `CTRL` itself, and `SYNCBUSY`, which "has one 1-bit field per `CTRL`
field" (R34). -/
structure CtrlFields (α : Type) where
  swrst : α
  enable : α
  cken : Pair α
  seren : Pair α
  deriving DecidableEq, Repr, Inhabited

def CtrlFields.get {α : Type} (r : CtrlFields α) : CtrlField → α
  | .swrst => r.swrst
  | .enable => r.enable
  | .cken c => r.cken.get c
  | .seren m => r.seren.get m

def CtrlFields.set {α : Type} (r : CtrlFields α) (f : CtrlField) (a : α) : CtrlFields α :=
  match f with
  | .swrst => { r with swrst := a }
  | .enable => { r with enable := a }
  | .cken c => { r with cken := r.cken.set c a }
  | .seren m => { r with seren := r.seren.set m a }

/-- The same value in every field. -/
def CtrlFields.all {α : Type} (a : α) : CtrlFields α := ⟨a, a, ⟨a, a⟩, ⟨a, a⟩⟩

/-- `FMT[m].MODE`; `other` stands for every value the sequencer never writes (R36). -/
inductive SerMode where
  | pdmRx
  | other
  deriving DecidableEq, Repr, Inhabited

/-- `FMT[m].FSSRC` (R36). -/
inductive FsSource where
  | bitClk
  | other
  deriving DecidableEq, Repr, Inhabited

/-- `FMT[m].BITORDER` and the parameter `BIT_ORDER` (R18, R36). -/
inductive BitOrder where
  | msbFirst
  | lsbFirst
  deriving DecidableEq, Repr, Inhabited

/-- The channel mode (R20, R24, R36). -/
inductive ChMode where
  | mono
  | stereo
  deriving DecidableEq, Repr, Inhabited

/-- The serializer frame-format register `FMT[m]` (R36). -/
structure FrameFormat where
  mode : SerMode
  dataSize : Nat
  slotSize : Nat
  fsSrc : FsSource
  bitOrder : BitOrder
  chMode : ChMode
  clkSel : UnitIx
  deriving DecidableEq, Repr, Inhabited

/-- The registers of one engine (R33 to R38), with the hidden pending writes (R45). -/
structure Engine where
  /-- The effective values of `CTRL`'s fields (R33, R46). -/
  ctrl : CtrlFields Bool
  /-- `SYNCBUSY` (R34). -/
  syncbusy : CtrlFields Bool
  /-- For each `CTRL` field the written value whose `SyncWait` has not yet returned, if any (R45). -/
  pending : CtrlFields (Option Bool)
  /-- `CLK[c].SCKDIV` (R35). -/
  clk : Pair Nat
  /-- `FMT[m]` (R36). -/
  fmt : Pair FrameFormat
  /-- `INTFLAG.RXRDY[m]` (R37). -/
  rxrdy : Pair Bool
  /-- `DATA[m]` (R38). -/
  data : Pair Word
  deriving DecidableEq, Repr, Inhabited

/-- `GEN[k].SRC` (R39). -/
inductive ClockSource where
  | ref
  | other
  deriving DecidableEq, Repr, Inhabited

/-- A generic-clock generator `GEN[k]` (R39). -/
structure Generator where
  src : ClockSource
  div : Nat
  genEn : Bool
  deriving DecidableEq, Repr, Inhabited

/-- The pin function a `PinMux` gives a pin: `CLK_ROLE(e, c)` or `DATA_ROLE(e, m)` (R110). -/
inductive PinRole where
  | clk (e : Nat) (c : UnitIx)
  | data (e : Nat) (m : UnitIx)
  deriving DecidableEq, Repr

/-- The collaborator operations with their arguments (R178). -/
inductive CallOp where
  | pinMux (pin : Nat) (role : PinRole)
  | pinRelease (pin : Nat)
  | genConfigure (k : Nat) (src : ClockSource) (g : Nat)
  | genEnable (k : Nat)
  | genConnect (e : Nat) (c : UnitIx) (k : Nat)
  deriving DecidableEq, Repr

/-- The outcome of a `Call` (R178). -/
inductive CallOutcome where
  | ok
  | fail
  deriving DecidableEq, Repr, Inhabited

/-- The outcome of a `SyncWait` (R46). -/
inductive SyncOutcome where
  | ok
  | timeout
  deriving DecidableEq, Repr, Inhabited

/-- The failure reasons (R93). None can be observed at the port. -/
inductive CalcFail where
  | zeroRate
  | tooFast
  | notExact
  | noPair
  deriving DecidableEq, Repr, Inhabited

/-- `CalcResult` (R92): the divisors and the achieved bit clock, or a reason. -/
inductive CalcResult where
  | ok (g s f : Nat)
  | fail (why : CalcFail)
  deriving DecidableEq, Repr, Inhabited

/-- The status codes (R165). Codes 7 to 15 are never produced, and no term stands for one. -/
inductive ErrCode where
  | none
  | config
  | bind
  | hwsync
  | arg
  | state
  | illegal
  deriving DecidableEq, Repr, Inhabited

/-- The sequencer's working registers (R30). -/
structure Work where
  /-- The calculator's result. -/
  r : CalcResult
  /-- The READ_BUF word index. -/
  i : Nat
  /-- The READ_BUF count, as Q0 reads it (an `int32`). -/
  n : Int
  /-- The last word read. -/
  w : Word
  /-- END's first error code. -/
  err : ErrCode
  /-- The CONFIGURE stereo flag. -/
  st : Bool
  /-- The CONFIGURE rate. -/
  rate : Word
  /-- The READ_BUF base address. -/
  buf : Word
  deriving DecidableEq, Repr, Inhabited

/-- Who takes a step (R17). The platform oracle is no agent. -/
inductive Agent where
  /-- The host. -/
  | host
  /-- The sequencer of the block with this `instanceId`. -/
  | sequencer (id : Nat)
  /-- The producer of serializer `m` of engine `e`. -/
  | producer (e : Nat) (m : UnitIx)
  deriving DecidableEq, Repr, Inhabited

/-- The oracle's answer to the draws of one step (R13), and the choice, also open (R17, R157), of the
agent that takes the step after it. A step reads the parts it draws and no other. -/
structure Answer where
  /-- The outcome of a `SyncWait` (R46). -/
  sync : SyncOutcome
  /-- The outcome of a `Call` that is not forced (R178). -/
  call : CallOutcome
  /-- The word a serializer delivers (R155). -/
  word : Word
  /-- The engine fields that are "any value" (R46, R49); `rxrdy` also decides whether `RXRDY[m]`
  survives a `SEREN[m] <- 0` sync (R46). -/
  engine : Engine
  /-- The generator fields that are "any value" (R178). -/
  gen : Generator
  /-- The routing entry that is "any value" (R178). -/
  route : Option Nat
  /-- Who steps next (R17). -/
  agent : Agent
  deriving DecidableEq, Repr, Inhabited

/-- The byte order of host memory (R59). -/
inductive Endian where
  | le
  | be
  deriving DecidableEq, Repr, Inhabited

end Sys2Proof.Machine
end

