-- ==== Sys2Proof/Config.lean ====
section
/-! DEFINITION. What an implementation fixes (R5, R7, R8) and the free values (R13). Every constant
here marked `opaque` has no body: no proof can see what it is. -/

namespace Sys2Proof

open Sys2Proof.Machine

/-- The engine, clock unit and serializer that a pin pair selects (R7). -/
structure UnitSel where
  engineId : Nat
  c : UnitIx
  m : UnitIx
  deriving DecidableEq, Repr, Inhabited

/-- One row of `UNIT_MAP` (R7). -/
structure UnitRow where
  clockPin : Nat
  dataPin : Nat
  sel : UnitSel
  deriving DecidableEq, Repr, Inhabited

/-- The parameters of R5, R7 and R8. `PORT_BASE` is per block and stands in the block. -/
structure Params where
  /-- `F_REF`, in Hz. -/
  fRef : Nat
  /-- `OSR`. -/
  osr : Nat
  /-- `GDIV_MAX`. -/
  gdivMax : Nat
  /-- `SDIV_MAX`. -/
  sdivMax : Nat
  /-- `F_SCK_MAX`, in Hz. -/
  fSckMax : Nat
  /-- `N_ENGINES`. -/
  nEngines : Nat
  /-- `GCLK_COUNT`. -/
  gclkCount : Nat
  /-- `SYNC_POLL_LIMIT`: "its value changes no rule" (R46, R198), so nothing reads it. -/
  syncPollLimit : Nat
  /-- `HOST_ENDIAN`. -/
  hostEndian : Endian
  /-- `ENGINE_BASE`: "the abstract model never reads" it (R7). -/
  engineBase : Nat
  /-- `SLOT_SIZE`. -/
  slotSize : Nat
  /-- `BIT_ORDER`. -/
  bitOrder : BitOrder
  /-- `CHECKED_READ` (R8). -/
  checkedRead : Bool
  /-- `UNIT_MAP` on the pin pairs it lists; all other pairs give `unitDefault` (log entry 22). -/
  unitRows : List UnitRow
  unitDefault : UnitSel
  deriving DecidableEq, Repr, Inhabited

/-- `UNIT_MAP(clockPin, dataPin)` (R7). -/
def Params.unitMap (p : Params) (clockPin dataPin : Nat) : UnitSel :=
  match p.unitRows.find? (fun r => r.clockPin == clockPin && r.dataPin == dataPin) with
  | some r => r.sel
  | none => p.unitDefault

/-- The legal values of R5 and R7. -/
def Params.legal (p : Params) : Bool :=
  decide (1 ≤ p.fRef) && decide (1 ≤ p.osr) && decide (1 ≤ p.gdivMax) && decide (1 ≤ p.sdivMax)
    && decide (1 ≤ p.fSckMax) && decide (1 ≤ p.nEngines) && decide (1 ≤ p.gclkCount)
    && decide (1 ≤ p.syncPollLimit)
    && p.unitRows.all (fun r => decide (r.sel.engineId < p.nEngines))
    && decide (p.unitDefault.engineId < p.nEngines)

/-- A legal parameter set from any one: a number that must be at least 1 is one more than the raw
number, an engine index is reduced below `N_ENGINES`. Every legal set arises so
(`Params.legalise_onto` in Laws/Config.lean). -/
def Params.legalise (p : Params) : Params :=
  { p with
    fRef := p.fRef + 1
    osr := p.osr + 1
    gdivMax := p.gdivMax + 1
    sdivMax := p.sdivMax + 1
    fSckMax := p.fSckMax + 1
    nEngines := p.nEngines + 1
    gclkCount := p.gclkCount + 1
    syncPollLimit := p.syncPollLimit + 1
    unitRows := p.unitRows.map
      (fun r => { r with sel := { r.sel with engineId := r.sel.engineId % (p.nEngines + 1) } })
    unitDefault := { p.unitDefault with engineId := p.unitDefault.engineId % (p.nEngines + 1) } }

/-- Reference profile P0 (R10): test vectors only, no statement about any chip. R10 gives P0 no
`ENGINE_BASE`, and R7 lets it be any: the 0 here is the model's choice, DESIGN CHOICE, log entry 32. -/
def Params.p0 : Params where
  fRef := 49152000
  osr := 64
  gdivMax := 255
  sdivMax := 32
  fSckMax := 3072000
  nEngines := 1
  gclkCount := 8
  syncPollLimit := 1000
  hostEndian := .le
  engineBase := 0
  slotSize := 32
  bitOrder := .msbFirst
  checkedRead := false
  unitRows := []
  unitDefault := ⟨0, .u0, .u0⟩

/-- A range of host memory addresses that the launch memory admits (R57). -/
structure Region where
  base : Nat
  size : Nat
  deriving DecidableEq, Repr, Inhabited

/-- The raw parameters of the machine, free (R5, R7, R8: "none is fixed by the source"). -/
opaque Config.rawParams : Params

/-- The machine's parameters: some legal set, which one is free. -/
def Config.params : Params := Config.rawParams.legalise

/-- The oracle's answers to the draws (R13), free: answer `n` serves the `n`-th step that has none
given in advance. -/
opaque Config.oracle : Nat → Answer

/-- The "any value" fields of engine `e` at power-on (R48), free. -/
opaque Config.powerOnDraw : Nat → Engine

/-- `GEN[k]` at power-on (R48), free. -/
opaque Config.powerOnGen : Nat → Generator

/-- `ROUTE[e]` at power-on (R48), free. -/
opaque Config.powerOnRoute : Nat → Pair (Option Nat)

/-- The byte that host memory holds at an address before anything is written there (R57), free. -/
opaque Config.launchByte : Nat → Byte

/-- What host memory admits (R57), free. -/
opaque Config.admitted : List Region

/-- The bit clock in Hz that an active serializer has, given `F_REF`, `GEN[k'].DIV` and `SCKDIV`, where
one of the two divisors is 0, free. R43 divides by their product and states no result there
(log entry 34). -/
opaque Config.bitClockUndivided : Nat → Nat → Nat → Nat

/-- `PORT_BASE` of the block with this `instanceId` (R7, R181), free. -/
opaque Config.portBase : Nat → Nat

/-- The clock pin the first block is constructed with (R109), free. -/
opaque Config.clockPin : Nat

/-- The data pin the first block is constructed with (R109), free. -/
opaque Config.dataPin : Nat

/-- The working registers of the block with this `instanceId` at construction: "unspecified, and never
read before written" (R30, R185), free. -/
opaque Config.workAtConstruction : Nat → Work

end Sys2Proof
end

