-- ==== Sys2Proof/Machine/Calc.lean ====
section
/-! DEFINITION. The clock-divisor and prescaler calculator, `Calc` (R91 to R108): step C1 of
CONFIGURE. Every value is a natural number, with no width and no wrap (R104). -/

namespace Sys2Proof.Machine

/-- The target bit clock `t = rate * OSR` (R97). The stereo flag is no input. -/
def targetClock (p : Params) (rate : Nat) : Nat := rate * p.osr

/-- `(g, N / g)` is a legal pair (R101). -/
def legalPair (p : Params) (total g : Nat) : Bool :=
  decide (1 ≤ g ∧ g ≤ p.gdivMax ∧ total % g = 0 ∧ total / g ≤ p.sdivMax)

/-- The largest legal `g` that is at most the bound, found from above (R101, R108). -/
def largestLegal (p : Params) (total : Nat) : Nat → Option Nat
  | 0 => none
  | g + 1 => if legalPair p total (g + 1) then some (g + 1) else largestLegal p total g

/-- `Calc(rate)` (R95), check by check in the order of the rule. -/
def calculate (p : Params) (rate : Nat) : CalcResult :=
  if rate = 0 then .fail .zeroRate
  else if p.fSckMax < targetClock p rate then .fail .tooFast
  else if p.fRef % targetClock p rate ≠ 0 then .fail .notExact
  else
    match largestLegal p (p.fRef / targetClock p rate) p.gdivMax with
    | none => .fail .noPair
    | some g =>
      .ok g (p.fRef / targetClock p rate / g)
        (p.fRef / (g * (p.fRef / targetClock p rate / g)))

end Sys2Proof.Machine
end

