-- ==== Sys2Proof/Machine/Table.lean ====
section
/-! DEFINITION. Sparse tables: a list of keys and values with the keys strictly rising. Host memory,
the blocks, the engines, the generators, the routes and the owners are such tables. -/

namespace Sys2Proof.Machine

/-- A sparse table. -/
abbrev Table (α : Type) := List (Nat × α)

/-- The entry at `i`, if one is listed. -/
def Table.at? {α : Type} : List (Nat × α) → Nat → Option α
  | [], _ => none
  | (k, v) :: t, i => if k = i then some v else Table.at? t i

/-- Put `a` at `i`, in its place by rising key. -/
def Table.put {α : Type} : List (Nat × α) → Nat → α → List (Nat × α)
  | [], i, a => [(i, a)]
  | (k, v) :: t, i, a =>
    if i < k then (i, a) :: (k, v) :: t
    else if i = k then (i, a) :: t
    else (k, v) :: Table.put t i a

/-- The first key is at least `n`, and each key is greater than the one before. -/
def Table.rising {α : Type} : Nat → List (Nat × α) → Bool
  | _, [] => true
  | n, (k, _) :: t => decide (n ≤ k) && Table.rising (k + 1) t

/-- The canonical form: keys strictly rising. -/
def Table.wf {α : Type} (t : List (Nat × α)) : Bool := Table.rising 0 t

end Sys2Proof.Machine
end

