-- ==== Sys2Proof/Machine/Block.lean ====
section
/-! DEFINITION. One constructed block (the source's "driver instance"): its record (R20), its port
registers (R25 to R28) and its working registers (R30), and construction (R109). -/

namespace Sys2Proof.Machine

/-- The lifecycle values (R20, R21). -/
inductive Lifecycle where
  | uninit
  | idle
  | running
  | indeterminate
  deriving DecidableEq, Repr, Inhabited

/-- The rows of BEGIN's micro-step table (R110). -/
inductive BeginRow where
  | b0 | b1 | b2 | b3 | b3f | b4 | b5 | b6 | b7 | b8 | b9 | b10
  deriving DecidableEq, Repr

/-- The rows of END's micro-step table (R118). -/
inductive EndRow where
  | e0 | e1 | e2 | e3 | e4 | e5 | e6 | e7 | e8 | e9
  deriving DecidableEq, Repr

/-- The rows of CONFIGURE's micro-step table (R127). -/
inductive ConfigureRow where
  | c0 | c1 | c2 | c3 | c4 | c5 | c6 | c7 | c8 | c9
  | c10 | c11 | c12 | c13 | c14 | c15 | c16 | c17 | c18 | c19
  deriving DecidableEq, Repr

/-- The rows of READ's micro-step table (R146). -/
inductive ReadRow where
  | rd0 | rd1 | rd2
  deriving DecidableEq, Repr

/-- The rows of READ_BUF's micro-step table (R149). -/
inductive ReadBufRow where
  | q0 | q1 | q2 | q3 | q4 | q5 | q6
  deriving DecidableEq, Repr

/-- A sequencer position `(op, label)`: "`label` names one row of that command's micro-step table"
(R29). GET_SER_INDEX has the one row G0 (R123), ILLEGAL the one row X0 (R81). -/
inductive Position where
  | begin (row : BeginRow)
  | end_ (row : EndRow)
  | configure (row : ConfigureRow)
  | read (row : ReadRow)
  | readBuf (row : ReadBufRow)
  | getSerIndex
  | illegal
  deriving DecidableEq, Repr

/-- The first row of a command (R79). -/
def Position.first : Except DecodeError Instr → Position
  | .ok .begin => .begin .b0
  | .ok .end_ => .end_ .e0
  | .ok (.configure _) => .configure .c0
  | .ok .read => .read .rd0
  | .ok .readBuf => .readBuf .q0
  | .ok .getSerIndex => .getSerIndex
  | .error _ => .illegal

/-- The command being executed at a position; `st` is the latched stereo flag. ILLEGAL is none of
the six commands. -/
def Position.instr (st : Bool) : Position → Option Instr
  | .begin _ => some .begin
  | .end_ _ => some .end_
  | .configure _ => some (.configure st)
  | .read _ => some .read
  | .readBuf _ => some .readBuf
  | .getSerIndex => some .getSerIndex
  | .illegal => none

/-- One block. Its `instanceId` is its key in `State.blocks` (log entry 24). -/
structure Block where
  /-- PinBinding and unit indices: fixed at construction (R22). -/
  clockPin : Nat
  dataPin : Nat
  k : BitVec 8
  e : Nat
  c : UnitIx
  m : UnitIx
  /-- `PORT_BASE` of this block's PORT window (R7, R181); fixed. -/
  portBase : Nat
  lifecycle : Lifecycle
  /-- ClockConfig and its validity flag (R23). -/
  cfgValid : Bool
  cfgG : Nat
  cfgS : Nat
  cfgF : Nat
  chMode : ChMode
  /-- The sequencer's position; `none` is `NONE`, no command executing (R29). -/
  seq : Option Position
  /-- The operand registers (R25). -/
  cmd : Word
  argRate : Word
  argCount : Word
  argBuf : Word
  /-- `RES_WORD` (R26). -/
  resWord : Word
  /-- `STATUS.RESULT` and `STATUS.ERRCODE`, which `finish` alone writes (R27). The other fields of
  `STATUS` are views (Flags.lean). -/
  result : Bool
  errCode : ErrCode
  work : Work
  deriving DecidableEq, Repr

/-- CONSTRUCT (R109): a fresh block with the construction values of R20 and R47. No operand is
validated. `id` is the fresh `instanceId`; it decides the two things that are the platform's, the
PORT base and the unspecified working registers. -/
def Block.construct (p : Params) (id clockPin dataPin : Nat) (clockGenIndex : BitVec 8 := 3) : Block where
  clockPin := clockPin
  dataPin := dataPin
  k := clockGenIndex
  e := (p.unitMap clockPin dataPin).engineId
  c := (p.unitMap clockPin dataPin).c
  m := (p.unitMap clockPin dataPin).m
  portBase := Config.portBase id
  lifecycle := .uninit
  cfgValid := false
  cfgG := 0
  cfgS := 0
  cfgF := 0
  chMode := .mono
  seq := none
  cmd := 0
  argRate := 0
  argCount := 0
  argBuf := 0
  resWord := 0
  result := false
  errCode := .none
  work := Config.workAtConstruction id

/-- Command start (R79): the write of `wd` to `CMD` while `BUSY` is 0. It latches the stereo flag for
CONFIGURE and leaves `RESULT` and `ERRCODE` as they were. -/
def Block.startCommand (b : Block) (wd : Word) : Block :=
  { b with
    cmd := wd
    seq := some (Position.first (decode wd))
    work := match decode wd with
      | .ok (.configure stereo) => { b.work with st := stereo }
      | _ => b.work }

/-- Move to a row (R29). -/
def Block.goto (b : Block) (pos : Position) : Block := { b with seq := some pos }

/-- `finish(code)` (R80). -/
def Block.finish (b : Block) (code : ErrCode) : Block :=
  { b with errCode := code, result := code == .none, seq := none }

/-- ClockConfig becomes invalid: the flag false and the triple `(0, 0, 0)` (R116, R121, R136). -/
def Block.invalidate (b : Block) : Block :=
  { b with cfgValid := false, cfgG := 0, cfgS := 0, cfgF := 0 }

/-- `fatal()` (R136). -/
def Block.fatal (b : Block) : Block :=
  ({ b.invalidate with lifecycle := .indeterminate }).finish .hwsync

/-- Row B10's commit (R116). -/
def Block.commitBegin (b : Block) : Block :=
  ({ b.invalidate with lifecycle := .idle }).finish .none

/-- Row E9's commit (R121). -/
def Block.commitEnd (b : Block) : Block :=
  ({ b.invalidate with lifecycle := .uninit }).finish b.work.err

/-- The channel mode that a stereo flag selects (R24). -/
def chModeOf (stereo : Bool) : ChMode := if stereo then .stereo else .mono

/-- Row C19's commit (R135): ClockConfig, channel mode and lifecycle change together. -/
def Block.commitConfigure (b : Block) (g s f : Nat) (stereo : Bool) : Block :=
  ({ b with
      cfgG := g
      cfgS := s
      cfgF := f
      cfgValid := true
      chMode := chModeOf stereo
      lifecycle := .running }).finish .none

end Sys2Proof.Machine
end

