-- ==== Sys2Proof/Machine/State.lean ====
section
/-! DEFINITION. The state of the whole machine, as plain data: the blocks, the platform they share,
host memory, the host's program, the event trace, and the model's own three fields for what the spec
leaves open. -/

namespace Sys2Proof.Machine

/-- A host primitive (R87), and what happens on the host's side without being one: CONSTRUCT (R109), and
accesses to a single byte or halfword of BUF (R59, log entry 33). `port` is the `instanceId` of the block whose PORT window is accessed, `width` the access's
width in bits: a primitive of R87 has width 32. -/
inductive HostOp where
  /-- `WR <off>, <v>`. -/
  | wr (port width : Nat) (off : BitVec 6) (v : Word)
  /-- `RD <off>`. -/
  | rd (port width : Nat) (off : BitVec 6)
  /-- `WAIT`. -/
  | wait (port : Nat)
  /-- `MRD <addr>`. -/
  | mrd (addr : Word)
  /-- `MWR <addr>, <v>`. -/
  | mwr (addr v : Word)
  /-- A load of the byte of BUF at `addr` (R59). -/
  | loadByte (addr : Word)
  /-- A load of the halfword of BUF at `addr` (R59). -/
  | loadHalf (addr : Word)
  /-- A store of a byte of BUF (R59). -/
  | storeByte (addr : Word) (v : Byte)
  /-- A store of a halfword of BUF (R59). -/
  | storeHalf (addr : Word) (v : BitVec 16)
  /-- `construct(clockPin, dataPin, clockGenIndex)`. -/
  | construct (clockPin dataPin : Nat) (clockGenIndex : BitVec 8)
  deriving DecidableEq, Repr

/-- The events of the trace (R12, R15). -/
inductive Event where
  /-- `Wr(e, CTRL.<field>, v)`. -/
  | wrCtrl (e : Nat) (f : CtrlField) (v : Bool)
  /-- `Wr(e, CLK[c].SCKDIV, v)`. -/
  | wrClk (e : Nat) (c : UnitIx) (v : Nat)
  /-- `Wr(e, FMT[m], v)`. -/
  | wrFmt (e : Nat) (m : UnitIx) (v : FrameFormat)
  /-- `Rd(e, INTFLAG.RXRDY[m], v)`. -/
  | rdReady (e : Nat) (m : UnitIx) (v : Bool)
  /-- `Rd(e, DATA[m], w)`. -/
  | rdData (e : Nat) (m : UnitIx) (w : Word)
  /-- `Sync(e, <field>, outcome)`. -/
  | sync (e : Nat) (f : CtrlField) (outcome : SyncOutcome)
  /-- `Call(op, args, outcome)`. -/
  | call (op : CallOp) (outcome : CallOutcome)
  /-- `Own(e, v)`. -/
  | own (e : Nat) (v : Option Nat)
  /-- `Deliver(e, m, w)`. -/
  | deliver (e : Nat) (m : UnitIx) (w : Word)
  /-- `BufWr(addr, w)`. -/
  | bufWr (addr : Nat) (w : Word)
  deriving DecidableEq, Repr

/-- Host memory: the bytes written so far, by address (R57). -/
abbrev Memory := List Host.Cell

/-- What an address that is not listed holds: no byte of the model's. It holds the byte the launch
memory came with, which the reading operation takes from the free values (R57, log entry 8). -/
def Memory.unlisted : Option Byte := none

/-- The canonical form: addresses strictly rising and below `2^32`. No entry can equal
`Memory.unlisted`. -/
def Memory.wf (m : Memory) : Bool := Table.wf m && m.all (fun c => decide (c.1 < 2 ^ 32))

structure State where
  /-- The parameters (R5, R7, R8); no step changes them. -/
  params : Params
  /-- The constructed blocks by `instanceId` (R20, R181). -/
  blocks : Table Block
  /-- The next fresh `instanceId`. -/
  nextId : Nat
  /-- The engines that no longer hold their power-on values (R33 to R38). -/
  engines : Table Engine
  /-- The generators that no longer hold their power-on values (R39). -/
  gens : Table Generator
  /-- The routing entries that no longer hold their power-on values (R40). -/
  routes : Table (Pair (Option Nat))
  /-- The engine owners that have been written (R41). -/
  owners : Table (Option Nat)
  /-- Host memory (R57). -/
  buf : Memory
  /-- What host memory admits (R57); no step changes it. -/
  admitted : List Region
  /-- The rest of the host program (R85, R87). -/
  program : List HostOp
  /-- The values that the host's loads returned, oldest first (R87); a byte or a halfword stands
  zero-extended (log entry 33). -/
  received : List Word
  /-- The event trace, oldest first (R15). -/
  trace : List Event
  /-- MODEL'S OWN: the agent that takes the next step (R17). -/
  turn : Agent
  /-- MODEL'S OWN: answers given in advance to the coming steps' draws, the next step's first. -/
  script : List Answer
  /-- MODEL'S OWN: how many answers have been used; it picks the free answer when the script is
  empty. -/
  drawn : Nat
  deriving DecidableEq, Repr

/-- Why a run ends in an error state (R14, R170). "No state after a fault is specified." -/
inductive Fault where
  /-- `F_CONCURRENT`: a host write to `CMD` or an ARG register while `BUSY = 1`. Raised by `hostStep`.
  Safe: the spec ends the run here. -/
  | concurrent
  /-- `F_PORT_ACCESS`: a host PORT access that is not 32 bits wide or not at a multiple of 4. Raised by
  `hostStep`. Safe: the spec ends the run here. -/
  | portAccess
  /-- `F_PORT_RESERVED`: a host access to offsets `0x24` to `0x3F`. Raised by `hostStep`. Safe: the spec
  ends the run here. -/
  | portReserved
  /-- `F_BUF_MISALIGNED`: READ_BUF's Q2 with `buf mod 4 != 0`. Raised by `execReadBuf`. Safe: the spec
  ends the run here. -/
  | bufMisaligned
  /-- `F_SHARED_ENGINE`: RD1 or Q3 reads 1 while another block owns the engine. Raised by `execRead` and
  `execReadBuf`. Safe: the spec ends the run here. -/
  | sharedEngine
  /-- `F_PROTECTED_WRITE`: a write to `CLK` or `FMT` of an enabled unit, or while a `CTRL` write is
  pending. Raised by `execConfigure`, in no state that a run reaches (R142). Safe: the spec ends the
  run here. -/
  | protectedWrite
  /-- The model's own: a host PORT access naming a block that has not been constructed, so no window
  stands there. Raised by `hostStep`. Safe: the model stops where the spec describes no access. -/
  | noWindow
  /-- The model's own: the host's access to BUF at bytes that host memory does not admit or that
  overlap a PORT window. Raised by `hostStep`. Safe: the model stops where the spec describes no
  access. -/
  | hostMemory
  deriving DecidableEq, Repr

/-- Why an instruction has no meaning. -/
inductive Refusal where
  /-- Rejected by name in `exec`: no arm is. Safe: the model stops. -/
  | notModelled (mnemonic : String)
  deriving DecidableEq, Repr

/-- The machine at the start of a run (R184, R185, R199): the platform at power-on (R48) and one block
constructed on it (R47, R109), `clockGenIndex` at its default 3. No host program is loaded and no
answer given in advance; the first turn is the host's (log entries 2, 3, 5, 9). -/
def State.reset : State where
  params := Config.params
  blocks := [(0, Block.construct Config.params 0 Config.clockPin Config.dataPin)]
  nextId := 1
  engines := []
  gens := []
  routes := []
  owners := []
  buf := []
  admitted := Config.admitted
  program := []
  received := []
  trace := []
  turn := .host
  script := []
  drawn := 0

end Sys2Proof.Machine
end

