-- ==== Sys2Proof/Machine/Flags.lean ====
section
/-! DEFINITION. The status codes' numbers, `STATUS` and the other read-only port registers
(R26 to R28, R31, R32, R165). The block has no arithmetic flags (R50). -/

namespace Sys2Proof.Machine

/-- A status code's number (R165). -/
def ErrCode.toBits : ErrCode → BitVec 4
  | .none => 0
  | .config => 1
  | .bind => 2
  | .hwsync => 3
  | .arg => 4
  | .state => 5
  | .illegal => 6

/-- A lifecycle value's number (R20). -/
def Lifecycle.toBits : Lifecycle → BitVec 2
  | .uninit => 0
  | .idle => 1
  | .running => 2
  | .indeterminate => 3

/-- `STATUS.CHMODE` (R20, R27). -/
def ChMode.toBit : ChMode → Bool
  | .mono => false
  | .stereo => true

/-- `STATUS.BUSY` is 1 exactly when `s.seq != NONE` (R31). -/
def Block.busy (b : Block) : Bool := b.seq.isSome

/-- `STATUS` (R27): from bit 31 down, 20 reserved bits, `CFG_VALID`, `CHMODE`, `LIFECYCLE`, `ERRCODE`,
2 reserved bits, `RESULT`, `BUSY`. -/
def Block.status (b : Block) : Word :=
  (0 : BitVec 20) ++ (BitVec.ofBool b.cfgValid ++ (BitVec.ofBool b.chMode.toBit ++
    (b.lifecycle.toBits ++ (b.errCode.toBits ++ ((0 : BitVec 2) ++
      (BitVec.ofBool b.result ++ BitVec.ofBool b.busy))))))

/-- `CFG_GDIV`, `cfgG mod 2^32` (R28). -/
def Block.cfgGdivReg (b : Block) : Word := BitVec.ofNat 32 b.cfgG

/-- `CFG_SDIV`, `cfgS mod 2^32` (R28). -/
def Block.cfgSdivReg (b : Block) : Word := BitVec.ofNat 32 b.cfgS

/-- `CFG_FBCK`, `cfgF mod 2^32` (R28). -/
def Block.cfgFbckReg (b : Block) : Word := BitVec.ofNat 32 b.cfgF

/-- The boolean result of the last command, from a `STATUS` word the host read: the `CHECK`
pseudo-instruction's `t[1]` (R89). -/
def checkResult (t : Word) : Bool := t.getLsbD 1

end Sys2Proof.Machine
end

