-- ==== Sys2Proof/Machine/Operands.lean ====
section
/-! DEFINITION. Operand assembly (R76). No operand is scaled or shifted; the stereo operand is in the
word and comes with the decoded command. -/

namespace Sys2Proof.Machine

/-- `sampleRateHz`: `ARG_RATE`, unsigned (R76). -/
def Block.rateOperand (b : Block) : Word := b.argRate

/-- `count`: `sext_32(ARG_COUNT)`, an integer in `[-2^31, 2^31)` (R76). -/
def Block.countOperand (b : Block) : Int := b.argCount.toInt

/-- `buffer`: `ARG_BUF`, a byte address; 0 is the null buffer (R76). -/
def Block.bufOperand (b : Block) : Word := b.argBuf

/-- Q0's argument check fails: the buffer is null or the count is not positive (R149, R150). -/
def Block.badBufArgs (b : Block) : Bool := b.bufOperand == 0 || decide (b.countOperand ≤ 0)

/-- The address of READ_BUF's word `i`, `buf + 4*i`, in the naturals (R57). -/
def bufAddr (base : Word) (i : Nat) : Nat := base.toNat + 4 * i

end Sys2Proof.Machine
end

