-- ==== Sys2Proof/Machine/Ops.lean ====
section
/-! DEFINITION. The named operations: reading and writing the platform's tables, engine register
access and synchronisation (R12, R33 to R49), collaborator calls (R178), host memory (R57 to R59), the
answers to draws (R13), and the shapes that the rows of the micro-step tables share. The block has no
traps (R174): there is no exception entry or return; `fatal()` is `Block.fatal`. -/

namespace Sys2Proof.Machine

/-! ## Tables of the platform -/

/-- Engine `e` at power-on (R48): `CTRL`, `SYNCBUSY` and `RXRDY` are 0, the rest is any value. -/
def Engine.powerOn (e : Nat) : Engine where
  ctrl := CtrlFields.all false
  syncbusy := CtrlFields.all false
  pending := CtrlFields.all none
  clk := (Config.powerOnDraw e).clk
  fmt := (Config.powerOnDraw e).fmt
  rxrdy := ⟨false, false⟩
  data := (Config.powerOnDraw e).data

/-- A routing entry that is any value: none, or an index of a generator that exists (R40). -/
def anyRoute (p : Params) (r : Option Nat) : Option Nat := r.map (fun k => k % p.gclkCount)

/-- `ROUTE[e]` at power-on (R48). -/
def powerOnRoute (p : Params) (e : Nat) : Pair (Option Nat) :=
  ⟨anyRoute p (Config.powerOnRoute e).u0, anyRoute p (Config.powerOnRoute e).u1⟩

def State.block? (s : State) (id : Nat) : Option Block := Table.at? s.blocks id

def State.engine (s : State) (e : Nat) : Engine := (Table.at? s.engines e).getD (Engine.powerOn e)

def State.gen (s : State) (k : Nat) : Generator := (Table.at? s.gens k).getD (Config.powerOnGen k)

def State.routesOf (s : State) (e : Nat) : Pair (Option Nat) :=
  (Table.at? s.routes e).getD (powerOnRoute s.params e)

/-- `ROUTE[e][c]` (R40). -/
def State.route (s : State) (e : Nat) (c : UnitIx) : Option Nat := (s.routesOf e).get c

/-- `OWNER[e]` (R41); `none` at power-on (R48). -/
def State.owner (s : State) (e : Nat) : Option Nat := (Table.at? s.owners e).getD none

def State.setBlock (s : State) (id : Nat) (b : Block) : State :=
  { s with blocks := Table.put s.blocks id b }

def State.setEngine (s : State) (e : Nat) (v : Engine) : State :=
  { s with engines := Table.put s.engines e v }

def State.setGen (s : State) (k : Nat) (v : Generator) : State :=
  { s with gens := Table.put s.gens k v }

def State.setRoute (s : State) (e : Nat) (c : UnitIx) (v : Option Nat) : State :=
  { s with routes := Table.put s.routes e ((s.routesOf e).set c v) }

def State.setOwner (s : State) (e : Nat) (v : Option Nat) : State :=
  { s with owners := Table.put s.owners e v }

def State.setBuf (s : State) (m : Memory) : State := { s with buf := m }

/-- Append an event to the trace (R15). -/
def State.log (s : State) (ev : Event) : State := { s with trace := s.trace ++ [ev] }

/-- Change an engine's owner, recorded as `Own(e, v)` (R15). -/
def State.own (s : State) (e : Nat) (v : Option Nat) : State := (s.setOwner e v).log (.own e v)

/-! ## Answers to draws -/

/-- The answer to this step's draws: the first of those given in advance, else a free one (R13). -/
def State.answer (s : State) : Answer :=
  match s.script with
  | a :: _ => a
  | [] => Config.oracle s.drawn

/-- Use up this step's answer and pass the turn to the agent it names (R17). -/
def State.nextAnswer (s : State) : State :=
  { s with script := s.script.tail, drawn := s.drawn + 1, turn := s.answer.agent }

/-- What a step adds around an agent's own action: its answer is used up. -/
def advance : Host.Outcome State Fault Refusal → Host.Outcome State Fault Refusal
  | .next s => .next s.nextAnswer
  | .fault f => .fault f
  | .refused r => .refused r

/-! ## Engine registers -/

/-- An `EngWr` of a `CTRL` field (R33): its `SYNCBUSY` bit is set, the write is pending (R45), the
effective value is left as it was. -/
def Engine.wrCtrl (en : Engine) (f : CtrlField) (v : Bool) : Engine :=
  { en with syncbusy := en.syncbusy.set f true, pending := en.pending.set f (some v) }

/-- What software reads in `CTRL.SWRST`: 1 while the reset is pending and 0 afterwards (R33). No row
reads it. -/
def Engine.swrstReads (en : Engine) : Bool := en.pending.swrst == some true || en.ctrl.swrst

/-- An engine reset's effect (R49); `d` is the drawn engine. -/
def Engine.resetTo (d : Engine) : Engine where
  ctrl := CtrlFields.all false
  syncbusy := CtrlFields.all false
  pending := CtrlFields.all none
  clk := d.clk
  fmt := d.fmt
  rxrdy := ⟨false, false⟩
  data := d.data

/-- `RXRDY` at an ok `SyncWait` of field `f` (R37, R46): after `SEREN[m] <- 0` serializer `m`'s flag
becomes 0 or stays as it was, as the drawn engine says. -/
def Engine.rxrdyAfterSync (en : Engine) (f : CtrlField) (d : Engine) : Pair Bool :=
  match f with
  | .seren m =>
    if en.pending.seren.get m = some false then
      en.rxrdy.set m (en.rxrdy.get m && d.rxrdy.get m)
    else en.rxrdy
  | _ => en.rxrdy

/-- An ok `SyncWait` (R46): the pending write takes effect and `SYNCBUSY.f` is 0; for `SWRST` the
engine reset completes. -/
def Engine.syncOk (en : Engine) (f : CtrlField) (d : Engine) : Engine :=
  match f with
  | .swrst => Engine.resetTo d
  | _ =>
    { en with
      ctrl := en.ctrl.set f ((en.pending.get f).getD (en.ctrl.get f))
      syncbusy := en.syncbusy.set f false
      pending := en.pending.set f none
      rxrdy := en.rxrdyAfterSync f d }

/-- A `SyncWait` that times out (R46): the field and its `SYNCBUSY` bit are any value; for `SWRST` every
engine register field is. The write is no longer pending (R45). -/
def Engine.syncTimeout (en : Engine) (f : CtrlField) (d : Engine) : Engine :=
  match f with
  | .swrst => { d with pending := CtrlFields.all none }
  | _ =>
    { en with
      ctrl := en.ctrl.set f (d.ctrl.get f)
      syncbusy := en.syncbusy.set f (d.syncbusy.get f)
      pending := en.pending.set f none }

/-- A `SyncWait` with this outcome (R46). -/
def Engine.sync (en : Engine) (f : CtrlField) (d : Engine) : SyncOutcome → Engine
  | .ok => en.syncOk f d
  | .timeout => en.syncTimeout f d

/-- Some `CTRL` write is pending (R45). -/
def Engine.anyPending (en : Engine) : Bool :=
  en.pending.swrst.isSome || en.pending.enable.isSome || en.pending.cken.u0.isSome
    || en.pending.cken.u1.isSome || en.pending.seren.u0.isSome || en.pending.seren.u1.isSome

/-- A write to `CLK[c]` is `F_PROTECTED_WRITE` (R170). -/
def Engine.clkProtected (en : Engine) (c : UnitIx) : Bool :=
  en.ctrl.cken.get c || en.ctrl.enable || en.anyPending

/-- A write to `FMT[m]` is `F_PROTECTED_WRITE` (R170). -/
def Engine.fmtProtected (en : Engine) (m : UnitIx) : Bool :=
  en.ctrl.seren.get m || en.ctrl.enable || en.anyPending

/-- `EngWr(e, CTRL.f, v)` (R12, R33). -/
def State.wrCtrl (s : State) (e : Nat) (f : CtrlField) (v : Bool) : State :=
  (s.setEngine e ((s.engine e).wrCtrl f v)).log (.wrCtrl e f v)

/-- `EngWr(e, CLK[c].SCKDIV, v)`, at once (R35). -/
def State.wrClk (s : State) (e : Nat) (c : UnitIx) (v : Nat) : State :=
  (s.setEngine e { s.engine e with clk := (s.engine e).clk.set c v }).log (.wrClk e c v)

/-- `EngWr(e, FMT[m], v)`, whole and at once (R36). -/
def State.wrFmt (s : State) (e : Nat) (m : UnitIx) (v : FrameFormat) : State :=
  (s.setEngine e { s.engine e with fmt := (s.engine e).fmt.set m v }).log (.wrFmt e m v)

/-- The outcome of a `SyncWait`, a draw (R46). -/
def State.syncOutcome (s : State) : SyncOutcome := s.answer.sync

/-- `SyncWait(e, f)`: its effect (R46) and its event (R12). -/
def State.afterSync (s : State) (e : Nat) (f : CtrlField) : State :=
  (s.setEngine e ((s.engine e).sync f s.answer.engine s.syncOutcome)).log (.sync e f s.syncOutcome)

/-- `EngRd(e, INTFLAG.RXRDY[m])` (R37). -/
def State.ready (s : State) (e : Nat) (m : UnitIx) : Bool := (s.engine e).rxrdy.get m

/-- `DATA[m]` of engine `e` (R38). -/
def State.dataReg (s : State) (e : Nat) (m : UnitIx) : Word := (s.engine e).data.get m

/-- The data read's effect: `RXRDY[m]` is 0 in the same step (R63), and its event. -/
def State.rdData (s : State) (e : Nat) (m : UnitIx) : State :=
  (s.setEngine e { s.engine e with rxrdy := (s.engine e).rxrdy.set m false }).log
    (.rdData e m (s.dataReg e m))

/-- Another block than `id` owns engine `e` (R161). -/
def State.ownedByOther (s : State) (e id : Nat) : Bool :=
  match s.owner e with
  | none => false
  | some o => o != id

/-- Generator `k'` feeds clock unit `c` of engine `e` and is enabled (R43). -/
def State.clockFed (s : State) (e : Nat) (c : UnitIx) : Bool :=
  match s.route e c with
  | none => false
  | some k => (s.gen k).genEn

/-- `rxActive(e, m)` (R43), on effective field values. -/
def State.rxActive (s : State) (e : Nat) (m : UnitIx) : Bool :=
  (s.engine e).ctrl.enable && (s.engine e).ctrl.seren.get m
    && (s.engine e).ctrl.cken.get ((s.engine e).fmt.get m).clkSel
    && ((s.engine e).fmt.get m).mode == .pdmRx
    && s.clockFed e ((s.engine e).fmt.get m).clkSel

/-- `F_REF / (DIV * SCKDIV)` (R43). A drawn `DIV` or `SCKDIV` may be 0, where R43 states no result: the
model's choice there is a free value, DESIGN CHOICE, log entry 34. -/
def dividedClock (fRef genDiv sckDiv : Nat) : Nat :=
  if genDiv * sckDiv = 0 then Config.bitClockUndivided fRef genDiv sckDiv
  else fRef / (genDiv * sckDiv)

/-- The bit clock of serializer `m` of engine `e` in Hz while it is active and its generator's source
is the reference (R43). -/
def State.bitClock (s : State) (e : Nat) (m : UnitIx) : Option Nat :=
  match s.route e ((s.engine e).fmt.get m).clkSel with
  | none => none
  | some k =>
    if s.rxActive e m ∧ (s.gen k).src = .ref then
      some (dividedClock s.params.fRef (s.gen k).div
        ((s.engine e).clk.get ((s.engine e).fmt.get m).clkSel))
    else none

/-! ## Collaborator calls -/

/-- The forced `fail`: a generator index that the platform does not have (R178). -/
def CallOp.forcedFail (p : Params) : CallOp → Bool
  | .pinMux _ _ => false
  | .pinRelease _ => false
  | .genConfigure k _ _ => decide (p.gclkCount ≤ k)
  | .genEnable k => decide (p.gclkCount ≤ k)
  | .genConnect _ _ k => decide (p.gclkCount ≤ k)

/-- The outcome of a `Call`: `fail` where it is forced, else a draw (R178). -/
def State.callOutcome (s : State) (op : CallOp) : CallOutcome :=
  if op.forcedFail s.params then .fail else s.answer.call

/-- A `GEN[k]` entry after a failed call: the drawn one, if there is a generator `k` (R178). -/
def State.failGen (s : State) (k : Nat) (v : Generator) : State :=
  if k < s.params.gclkCount then s.setGen k v else s

/-- A `Call`'s effect on `GEN` and `ROUTE` (R178); pin functions are not modelled (R42). -/
def State.callEffect (s : State) (op : CallOp) : State :=
  match op, s.callOutcome op with
  | .pinMux _ _, _ => s
  | .pinRelease _, _ => s
  | .genConfigure k src g, .ok => s.setGen k { s.gen k with src := src, div := g }
  | .genConfigure k _ _, .fail => s.failGen k s.answer.gen
  | .genEnable k, .ok => s.setGen k { s.gen k with genEn := true }
  | .genEnable k, .fail => s.failGen k { s.gen k with genEn := s.answer.gen.genEn }
  | .genConnect e c k, .ok => s.setRoute e c (some k)
  | .genConnect e c _, .fail => s.setRoute e c (anyRoute s.params s.answer.route)

/-- `Call(op, args)`: its effect and its event (R12). -/
def State.afterCall (s : State) (op : CallOp) : State :=
  (s.callEffect op).log (.call op (s.callOutcome op))

/-! ## Host memory -/

/-- Byte `j` of a word in memory, in the byte order of R59. -/
def byteOf (en : Endian) (w : Word) (j : Nat) : Byte :=
  match en with
  | .le => w.extractLsb' (8 * j) 8
  | .be => w.extractLsb' (24 - 8 * j) 8

/-- The word whose bytes in memory are these, lowest address first (R59). -/
def wordOfBytes (en : Endian) (b0 b1 b2 b3 : Byte) : Word :=
  match en with
  | .le => b3 ++ (b2 ++ (b1 ++ b0))
  | .be => b0 ++ (b1 ++ (b2 ++ b3))

/-- Store a word's 4 bytes at `addr .. addr+3` (R58, R59). -/
def Memory.writeWord (m : Memory) (en : Endian) (addr : Nat) (w : Word) : Memory :=
  Table.put (Table.put (Table.put (Table.put m addr (byteOf en w 0)) (addr + 1) (byteOf en w 1))
    (addr + 2) (byteOf en w 2)) (addr + 3) (byteOf en w 3)

/-- Byte `j` of a halfword in memory, in the byte order of R59 (log entry 33). -/
def halfByteOf (en : Endian) (h : BitVec 16) (j : Nat) : Byte :=
  match en with
  | .le => h.extractLsb' (8 * j) 8
  | .be => h.extractLsb' (8 - 8 * j) 8

/-- The halfword whose bytes in memory are these, lowest address first (R59, log entry 33). -/
def halfOfBytes (en : Endian) (b0 b1 : Byte) : BitVec 16 :=
  match en with
  | .le => b1 ++ b0
  | .be => b0 ++ b1

/-- Store one byte. -/
def Memory.writeByte (m : Memory) (addr : Nat) (b : Byte) : Memory := Table.put m addr b

/-- Store a halfword's 2 bytes at `addr` and `addr+1`. -/
def Memory.writeHalf (m : Memory) (en : Endian) (addr : Nat) (h : BitVec 16) : Memory :=
  (m.writeByte addr (halfByteOf en h 0)).writeByte (addr + 1) (halfByteOf en h 1)

/-- The byte of host memory at an address: the last one written, else the launch memory's (R57). -/
def State.readByte (s : State) (addr : Nat) : Byte :=
  (Table.at? s.buf addr).getD (Config.launchByte addr)

/-- The word of host memory at an address (R59). -/
def State.readWord (s : State) (addr : Nat) : Word :=
  wordOfBytes s.params.hostEndian (s.readByte addr) (s.readByte (addr + 1)) (s.readByte (addr + 2))
    (s.readByte (addr + 3))

/-- The halfword of host memory at an address (R59, log entry 33). -/
def State.readHalf (s : State) (addr : Nat) : BitVec 16 :=
  halfOfBytes s.params.hostEndian (s.readByte addr) (s.readByte (addr + 1))

/-- `admits(addr, n)`: one listed range holds the `n` bytes (R57, log entry 8). -/
def State.admits (s : State) (n addr : Nat) : Bool :=
  s.admitted.any (fun r => decide (r.base ≤ addr) && decide (addr + n ≤ r.base + r.size))

/-- The `n` bytes at `addr` overlap the 64-byte PORT window of a block (R53, R57). -/
def State.overlapsPort (s : State) (n addr : Nat) : Bool :=
  s.blocks.any (fun b => decide (addr < b.2.portBase + 64) && decide (b.2.portBase < addr + n))

/-- The `n`-byte access at `addr` is admitted (R57). -/
def State.accessOk (s : State) (n addr : Nat) : Bool :=
  decide (addr + n ≤ 2 ^ 32) && s.admits n addr && !s.overlapsPort n addr

/-- The 4-byte access at `addr` is admitted (R57). -/
def State.memOk (s : State) (addr : Nat) : Bool := s.accessOk 4 addr

/-- `MemWrite(addr, 4, w)` and its event (R58). -/
def State.memWrite (s : State) (addr : Nat) (w : Word) : State :=
  (s.setBuf (s.buf.writeWord s.params.hostEndian addr w)).log (.bufWr addr w)

/-! ## Blocks and the sequencer -/

/-- CONSTRUCT (R109): no engine access, no call, no event. -/
def State.construct (s : State) (clockPin dataPin : Nat) (clockGenIndex : BitVec 8 := 3) : State :=
  { s with
    blocks := Table.put s.blocks s.nextId
      (Block.construct s.params s.nextId clockPin dataPin clockGenIndex)
    nextId := s.nextId + 1 }

/-- The block whose sequencer has the turn, with its `instanceId`. -/
def State.self (s : State) : Option (Nat × Block) :=
  match s.turn with
  | .sequencer id =>
    match s.block? id with
    | some b => some (id, b)
    | none => none
  | _ => none

/-- What the sequencer whose turn it is has to execute. -/
inductive Fetched where
  /-- No command (R29), or no such block: it has no step. -/
  | idle
  /-- Row X0 of ILLEGAL (R81). -/
  | illegal (id : Nat) (b : Block)
  /-- A row of one of the six commands. -/
  | command (i : Instr)
  deriving DecidableEq, Repr

/-- The command at the sequencer's position. -/
def State.fetch (s : State) : Fetched :=
  match s.self with
  | none => .idle
  | some (id, b) =>
    match b.seq with
    | none => .idle
    | some pos =>
      match pos.instr b.work.st with
      | some i => .command i
      | none => .illegal id b

/-- X0: `finish(E_ILLEGAL)` and nothing else (R81). -/
def illegalRow (id : Nat) (b : Block) (s : State) : State := s.setBlock id (b.finish .illegal)

/-! ## Row shapes -/

/-- What follows an `ok`, or a `timeout`. -/
def SyncOutcome.pick {α : Type} (o : SyncOutcome) (onOk onTimeout : α) : α :=
  match o with
  | .ok => onOk
  | .timeout => onTimeout

/-- What follows an `ok`, or a `fail`. -/
def CallOutcome.pick {α : Type} (o : CallOutcome) (onOk onFail : α) : α :=
  match o with
  | .ok => onOk
  | .fail => onFail

/-- A row that writes a `CTRL` field and goes to the next row. -/
def State.ctrlRow (s : State) (id : Nat) (b : Block) (f : CtrlField) (v : Bool) (next : Position) :
    State :=
  (s.wrCtrl b.e f v).setBlock id (b.goto next)

/-- A `SyncWait` row: the block becomes `onOk` or `onTimeout`. -/
def State.syncRow (s : State) (id : Nat) (b : Block) (f : CtrlField) (onOk onTimeout : Block) :
    State :=
  (s.afterSync b.e f).setBlock id (s.syncOutcome.pick onOk onTimeout)

/-- A `Call` row: the block becomes `onOk` or `onFail`. -/
def State.callRow (s : State) (id : Nat) (op : CallOp) (onOk onFail : Block) : State :=
  (s.afterCall op).setBlock id ((s.callOutcome op).pick onOk onFail)

/-- A poll row, RD1 or Q3 (R146, R147, R149): it holds while the flag reads 0, faults when another
block owns the engine, and else goes on. It leaves the flag 1, so two blocks that do not own an engine
nobody owns (R161) can both pass it before either reads the data, and one delivered word is then returned
twice: DEDUCED, log entry 29, which follows the rows where R159 says at most once. -/
def State.pollRow (s : State) (id : Nat) (b : Block) (next : Position) :
    Host.Outcome State Fault Refusal :=
  if s.ready b.e b.m then
    if s.ownedByOther b.e id then .fault .sharedEngine
    else .next ((s.log (.rdReady b.e b.m true)).setBlock id (b.goto next))
  else .next s

end Sys2Proof.Machine
end

