-- ==== Sys2Proof/Machine/Configure.lean ====
section
/-! DEFINITION. CONFIGURE (R127 to R145), the PDM serial-engine configuration sequencer. -/

namespace Sys2Proof.Machine

/-- C0's operand copy: `rate <- ARG_RATE` (R68, R127). -/
def Block.latchRate (b : Block) : Block := { b with work := { b.work with rate := b.rateOperand } }

/-- C1's result (R129). -/
def Block.setCalc (b : Block) (r : CalcResult) : Block := { b with work := { b.work with r := r } }

/-- C1 (R129): the calculator runs before any engine access, and a failure leaves everything else as
it was. -/
def calcRow (id : Nat) (b : Block) (s : State) : State :=
  match calculate s.params b.work.rate.toNat with
  | .fail why => s.setBlock id ((b.setCalc (.fail why)).finish .config)
  | .ok g q f => s.setBlock id ((b.setCalc (.ok g q f)).goto (.configure .c2))

/-- The frame format that C12 writes (R36, R133). -/
def frameFormat (p : Params) (stereo : Bool) (c : UnitIx) : FrameFormat where
  mode := .pdmRx
  dataSize := 32
  slotSize := p.slotSize
  fsSrc := .bitClk
  bitOrder := p.bitOrder
  chMode := chModeOf stereo
  clkSel := c

/-- C11 (R132), guarded by `F_PROTECTED_WRITE` (R170). -/
def clkRow (id : Nat) (b : Block) (divisor : Nat) (s : State) : Host.Outcome State Fault Refusal :=
  if (s.engine b.e).clkProtected b.c then .fault .protectedWrite
  else .next ((s.wrClk b.e b.c divisor).setBlock id (b.goto (.configure .c12)))

/-- C12 (R133), guarded by `F_PROTECTED_WRITE` (R170). -/
def fmtRow (stereo : Bool) (id : Nat) (b : Block) (s : State) : Host.Outcome State Fault Refusal :=
  if (s.engine b.e).fmtProtected b.m then .fault .protectedWrite
  else .next ((s.wrFmt b.e b.m (frameFormat s.params stereo b.c)).setBlock id
    (b.goto (.configure .c13)))

/-- CONFIGURE's micro-step table (R127). The rows that name `g`, `s` or `f` have a step only where `r`
is `Ok(g, s, f)`, which C1 sees to (log entry 12). -/
def configureRow (stereo : Bool) (row : ConfigureRow) (id : Nat) (b : Block) (s : State) :
    Host.Outcome State Fault Refusal :=
  match row with
  | .c0 =>
    .next (s.setBlock id
      (if b.lifecycle = .idle ∨ b.lifecycle = .running then b.latchRate.goto (.configure .c1)
       else b.finish .state))
  | .c1 => .next (calcRow id b s)
  | .c2 => .next (s.ctrlRow id b (.seren b.m) false (.configure .c3))
  | .c3 => .next (s.syncRow id b (.seren b.m) (b.goto (.configure .c4)) b.fatal)
  | .c4 => .next (s.ctrlRow id b (.cken b.c) false (.configure .c5))
  | .c5 => .next (s.syncRow id b (.cken b.c) (b.goto (.configure .c6)) b.fatal)
  | .c6 => .next (s.ctrlRow id b .enable false (.configure .c7))
  | .c7 => .next (s.syncRow id b .enable (b.goto (.configure .c8)) b.fatal)
  | .c8 =>
    match b.work.r with
    | .ok g _ _ =>
      .next (s.callRow id (.genConfigure b.k.toNat .ref g) (b.goto (.configure .c9)) b.fatal)
    | .fail _ => .next s
  | .c9 => .next (s.callRow id (.genEnable b.k.toNat) (b.goto (.configure .c10)) b.fatal)
  | .c10 =>
    .next (s.callRow id (.genConnect b.e b.c b.k.toNat) (b.goto (.configure .c11)) b.fatal)
  | .c11 =>
    match b.work.r with
    | .ok _ divisor _ => clkRow id b divisor s
    | .fail _ => .next s
  | .c12 => fmtRow stereo id b s
  | .c13 => .next (s.ctrlRow id b .enable true (.configure .c14))
  | .c14 => .next (s.syncRow id b .enable (b.goto (.configure .c15)) b.fatal)
  | .c15 => .next (s.ctrlRow id b (.cken b.c) true (.configure .c16))
  | .c16 => .next (s.syncRow id b (.cken b.c) (b.goto (.configure .c17)) b.fatal)
  | .c17 => .next (s.ctrlRow id b (.seren b.m) true (.configure .c18))
  | .c18 => .next (s.syncRow id b (.seren b.m) (b.goto (.configure .c19)) b.fatal)
  | .c19 =>
    match b.work.r with
    | .ok g divisor f => .next (s.setBlock id (b.commitConfigure g divisor f stereo))
    | .fail _ => .next s

/-- CONFIGURE: the row at which the sequencer stands. -/
def execConfigure (stereo : Bool) (s : State) : Host.Outcome State Fault Refusal :=
  match s.self with
  | some (id, b) =>
    match b.seq with
    | some (.configure row) => configureRow stereo row id b s
    | _ => .next s
  | none => .next s

end Sys2Proof.Machine
end

