-- ==== Sys2Proof/Machine/Lifecycle.lean ====
section
/-! DEFINITION. BEGIN (R110 to R117), END (R118 to R122) and GET_SER_INDEX (R123). -/

namespace Sys2Proof.Machine

/-- BEGIN's micro-step table (R110). `id` and `b` are the block whose sequencer steps. -/
def beginRow (row : BeginRow) (id : Nat) (b : Block) (s : State) : State :=
  match row with
  | .b0 =>
    s.setBlock id (if b.lifecycle ≠ .uninit then b.finish .state else b.goto (.begin .b1))
  | .b1 =>
    if s.owner b.e ≠ none then s.setBlock id (b.finish .bind)
    else (s.own b.e (some id)).setBlock id (b.goto (.begin .b2))
  | .b2 =>
    match s.callOutcome (.pinMux b.clockPin (.clk b.e b.c)) with
    | .ok => (s.afterCall (.pinMux b.clockPin (.clk b.e b.c))).setBlock id (b.goto (.begin .b3))
    | .fail =>
      ((s.afterCall (.pinMux b.clockPin (.clk b.e b.c))).own b.e none).setBlock id (b.finish .bind)
  | .b3 =>
    s.callRow id (.pinMux b.dataPin (.data b.e b.m)) (b.goto (.begin .b4)) (b.goto (.begin .b3f))
  | .b3f =>
    ((s.afterCall (.pinRelease b.clockPin)).own b.e none).setBlock id (b.finish .bind)
  | .b4 => s.ctrlRow id b .swrst true (.begin .b5)
  | .b5 => s.syncRow id b .swrst (b.goto (.begin .b6)) b.fatal
  | .b6 => s.ctrlRow id b (.seren b.m) false (.begin .b7)
  | .b7 => s.syncRow id b (.seren b.m) (b.goto (.begin .b8)) b.fatal
  | .b8 => s.ctrlRow id b (.cken b.c) false (.begin .b9)
  | .b9 => s.syncRow id b (.cken b.c) (b.goto (.begin .b10)) b.fatal
  | .b10 => s.setBlock id b.commitBegin

/-- BEGIN: the row at which the sequencer stands. A sequencer that executes no BEGIN has no step of
it (log entry 12). -/
def execBegin (s : State) : Host.Outcome State Fault Refusal :=
  match s.self with
  | some (id, b) =>
    match b.seq with
    | some (.begin row) => .next (beginRow row id b s)
    | _ => .next s
  | none => .next s

/-- END records a timeout as its first error (R120). -/
def Block.noteTimeout (b : Block) : Block := { b with work := { b.work with err := .hwsync } }

/-- E0's start: no error yet (R118). -/
def Block.clearErr (b : Block) : Block := { b with work := { b.work with err := .none } }

/-- END's micro-step table (R118). "A timeout does not stop END." -/
def endRow (row : EndRow) (id : Nat) (b : Block) (s : State) : State :=
  match row with
  | .e0 =>
    s.setBlock id (if b.lifecycle = .uninit then b.finish .none else b.clearErr.goto (.end_ .e1))
  | .e1 => s.ctrlRow id b (.seren b.m) false (.end_ .e2)
  | .e2 => s.syncRow id b (.seren b.m) (b.goto (.end_ .e3)) (b.noteTimeout.goto (.end_ .e3))
  | .e3 => s.ctrlRow id b (.cken b.c) false (.end_ .e4)
  | .e4 => s.syncRow id b (.cken b.c) (b.goto (.end_ .e5)) (b.noteTimeout.goto (.end_ .e5))
  | .e5 => s.ctrlRow id b .enable false (.end_ .e6)
  | .e6 => s.syncRow id b .enable (b.goto (.end_ .e7)) (b.noteTimeout.goto (.end_ .e7))
  | .e7 => s.callRow id (.pinRelease b.dataPin) (b.goto (.end_ .e8)) (b.goto (.end_ .e8))
  | .e8 => s.callRow id (.pinRelease b.clockPin) (b.goto (.end_ .e9)) (b.goto (.end_ .e9))
  | .e9 => (s.own b.e none).setBlock id b.commitEnd

/-- END: the row at which the sequencer stands. -/
def execEnd (s : State) : Host.Outcome State Fault Refusal :=
  match s.self with
  | some (id, b) =>
    match b.seq with
    | some (.end_ row) => .next (endRow row id b s)
    | _ => .next s
  | none => .next s

/-- G0 (R123): `RES_WORD` gets the zero-extended serializer index; legal in every lifecycle state. -/
def getSerIndexRow (id : Nat) (b : Block) (s : State) : State :=
  s.setBlock id (({ b with resWord := BitVec.ofNat 32 b.m.toNat }).finish .none)

/-- GET_SER_INDEX: its one row. -/
def execGetSerIndex (s : State) : Host.Outcome State Fault Refusal :=
  match s.self with
  | some (id, b) =>
    match b.seq with
    | some .getSerIndex => .next (getSerIndexRow id b s)
    | _ => .next s
  | none => .next s

end Sys2Proof.Machine
end

