-- ==== Sys2Proof/Machine/Read.lean ====
section
/-! DEFINITION. READ (R146 to R148), READ_BUF (R149 to R154) and the serializer producer
(R155, R156). -/

namespace Sys2Proof.Machine

/-- The state check that `CHECKED_READ` adds fails (R8, R146, R151). -/
def readRefused (s : State) (b : Block) : Bool :=
  s.params.checkedRead && decide (b.lifecycle ≠ .running)

/-- RD2's result (R148). -/
def Block.takeWord (b : Block) (w : Word) : Block :=
  ({ b with resWord := w, work := { b.work with w := w } }).finish .none

/-- READ's micro-step table (R146). RD1 and RD2 are separate steps, so a delivery may fall between
them (R159); so may another block's RD1 and RD2, or another block's engine reset, where this block does
not own the engine (R161): against R159's remarks a word can then be returned twice, or a word that was
not delivered. The rows are followed: DEDUCED, log entry 29. -/
def readRow (row : ReadRow) (id : Nat) (b : Block) (s : State) : Host.Outcome State Fault Refusal :=
  match row with
  | .rd0 =>
    .next (s.setBlock id (if readRefused s b then b.finish .state else b.goto (.read .rd1)))
  | .rd1 => s.pollRow id b (.read .rd2)
  | .rd2 => .next ((s.rdData b.e b.m).setBlock id (b.takeWord (s.dataReg b.e b.m)))

/-- READ: the row at which the sequencer stands. -/
def execRead (s : State) : Host.Outcome State Fault Refusal :=
  match s.self with
  | some (id, b) =>
    match b.seq with
    | some (.read row) => readRow row id b s
    | _ => .next s
  | none => .next s

/-- Q0's operand copies (R68, R149). -/
def Block.latchBufArgs (b : Block) : Block :=
  { b with work := { b.work with buf := b.bufOperand, n := b.countOperand } }

/-- The READ_BUF word index becomes `i` (R149). -/
def Block.setIndex (b : Block) (i : Nat) : Block := { b with work := { b.work with i := i } }

/-- The last word read becomes `w` (R149). -/
def Block.setReadWord (b : Block) (w : Word) : Block := { b with work := { b.work with w := w } }

/-- The address Q5 stores to (R149). -/
def Block.storeAddr (b : Block) : Nat := bufAddr b.work.buf b.work.i

/-- Q5 (R149): the store, or no step for ever where it is not admitted (R57, R171). Other agents may
still step, so a stuck sequencer is no fault of the machine (log entry 11). -/
def storeRow (id : Nat) (b : Block) (s : State) : State :=
  if s.memOk b.storeAddr then
    (s.memWrite b.storeAddr b.work.w).setBlock id (b.goto (.readBuf .q6))
  else s

/-- READ_BUF's micro-step table (R149). -/
def readBufRow (row : ReadBufRow) (id : Nat) (b : Block) (s : State) :
    Host.Outcome State Fault Refusal :=
  match row with
  | .q0 =>
    .next (s.setBlock id
      (if b.badBufArgs then b.latchBufArgs.finish .arg else b.latchBufArgs.goto (.readBuf .q1)))
  | .q1 =>
    .next (s.setBlock id (if readRefused s b then b.finish .state else b.goto (.readBuf .q2)))
  | .q2 =>
    if b.work.buf.toNat % 4 ≠ 0 then .fault .bufMisaligned
    else .next (s.setBlock id ((b.setIndex 0).goto (.readBuf .q3)))
  | .q3 => s.pollRow id b (.readBuf .q4)
  | .q4 =>
    .next ((s.rdData b.e b.m).setBlock id
      ((b.setReadWord (s.dataReg b.e b.m)).goto (.readBuf .q5)))
  | .q5 => .next (storeRow id b s)
  | .q6 =>
    .next (s.setBlock id
      (if ((b.work.i + 1 : Nat) : Int) < b.work.n then
        (b.setIndex (b.work.i + 1)).goto (.readBuf .q3)
       else (b.setIndex (b.work.i + 1)).finish .none))

/-- READ_BUF: the row at which the sequencer stands. -/
def execReadBuf (s : State) : Host.Outcome State Fault Refusal :=
  match s.self with
  | some (id, b) =>
    match b.seq with
    | some (.readBuf row) => readBufRow row id b s
    | _ => .next s
  | none => .next s

/-- `Deliver(e, m, w)` (R155): the word is written and the flag set in one step, whether or not the
word before was read (R158). -/
def State.deliver (s : State) (e : Nat) (m : UnitIx) (w : Word) : State :=
  (s.setEngine e
    { s.engine e with
      data := (s.engine e).data.set m w
      rxrdy := (s.engine e).rxrdy.set m true }).log (.deliver e m w)

/-- The producer of serializer `m` of engine `e`, one of the `N_ENGINES` engines, has its step exactly
when `rxActive(e, m)` holds; the word is a draw (R155, R156). -/
def producerStep (e : Nat) (m : UnitIx) (s : State) : State :=
  if e < s.params.nEngines ∧ s.rxActive e m then s.deliver e m s.answer.word else s

end Sys2Proof.Machine
end

