-- ==== Sys2Proof/Machine/Dispatch.lean ====
section
/-! DEFINITION. One arm per command: the micro-step of the command at the sequencer's position. -/

namespace Sys2Proof.Machine

def exec (i : Instr) (s : State) : Host.Outcome State Fault Refusal :=
  match i with
  | .begin => Sys2Proof.Machine.execBegin s
  | .end_ => Sys2Proof.Machine.execEnd s
  | .configure stereo => Sys2Proof.Machine.execConfigure stereo s
  | .read => Sys2Proof.Machine.execRead s
  | .readBuf => Sys2Proof.Machine.execReadBuf s
  | .getSerIndex => Sys2Proof.Machine.execGetSerIndex s

end Sys2Proof.Machine
end

