-- ==== Sys2Proof/Machine/HostPort.lean ====
section
/-! DEFINITION. The host's steps (R87): port accesses (R53 to R55, R79), `WAIT`, and host-memory
accesses. -/

namespace Sys2Proof.Machine

/-- The port registers (R54). -/
inductive PortReg where
  | cmd
  | argRate
  | argCount
  | argBuf
  | status
  | resWord
  | cfgGdiv
  | cfgSdiv
  | cfgFbck
  deriving DecidableEq, Repr

/-- What stands at an offset of the PORT window. -/
inductive PortTarget where
  /-- A register, for a 32-bit access (R54). -/
  | reg (r : PortReg)
  /-- Offsets `0x24` to `0x3F` (R55). -/
  | reserved
  /-- An access the port does not define (R53). -/
  | undefinedAccess
  deriving DecidableEq, Repr

/-- The register map (R54). -/
def portRegAt (off : Nat) : PortReg :=
  if off = 0x00 then .cmd
  else if off = 0x04 then .argRate
  else if off = 0x08 then .argCount
  else if off = 0x0C then .argBuf
  else if off = 0x10 then .status
  else if off = 0x14 then .resWord
  else if off = 0x18 then .cfgGdiv
  else if off = 0x1C then .cfgSdiv
  else .cfgFbck

/-- What an access of this width at this offset reaches. "A host access of any kind" to a reserved
offset is `F_PORT_RESERVED` (R55), so that test comes first. An access is judged by the offset of its
first byte: one that starts below `0x24` and reaches bytes at `0x24` or above (32 bits at `0x21` to `0x23`,
64 bits at `0x20`), to which R53 and R55 can both be read to apply, is `F_PORT_ACCESS`. Both are the model's
choice: DESIGN CHOICE, log entry 15. -/
def portTarget (width : Nat) (off : BitVec 6) : PortTarget :=
  if 0x24 ≤ off.toNat then .reserved
  else if width ≠ 32 ∨ off.toNat % 4 ≠ 0 then .undefinedAccess
  else .reg (portRegAt off.toNat)

/-- A port register's value (R25 to R28). No read has a side effect (R63). -/
def Block.readPort (b : Block) : PortReg → Word
  | .cmd => b.cmd
  | .argRate => b.argRate
  | .argCount => b.argCount
  | .argBuf => b.argBuf
  | .status => b.status
  | .resWord => b.resWord
  | .cfgGdiv => b.cfgGdivReg
  | .cfgSdiv => b.cfgSdivReg
  | .cfgFbck => b.cfgFbckReg

/-- A write of a port register, or `none` where it is `F_CONCURRENT` (R25, R79). A write to a read-only
register is ignored (R55). -/
def Block.writePort (b : Block) (r : PortReg) (v : Word) : Option Block :=
  match r with
  | .cmd => if b.busy then none else some (b.startCommand v)
  | .argRate => if b.busy then none else some { b with argRate := v }
  | .argCount => if b.busy then none else some { b with argCount := v }
  | .argBuf => if b.busy then none else some { b with argBuf := v }
  | .status | .resWord | .cfgGdiv | .cfgSdiv | .cfgFbck => some b

/-- `WR` (R87). -/
def State.portWrite (s : State) (port width : Nat) (off : BitVec 6) (v : Word) :
    Host.Outcome State Fault Refusal :=
  match s.block? port with
  | none => .fault .noWindow
  | some b =>
    match portTarget width off with
    | .reserved => .fault .portReserved
    | .undefinedAccess => .fault .portAccess
    | .reg r =>
      match b.writePort r v with
      | none => .fault .concurrent
      | some b' => .next (s.setBlock port b')

/-- `RD` (R87): the value goes to the host. -/
def State.portRead (s : State) (port width : Nat) (off : BitVec 6) :
    Host.Outcome State Fault Refusal :=
  match s.block? port with
  | none => .fault .noWindow
  | some b =>
    match portTarget width off with
    | .reserved => .fault .portReserved
    | .undefinedAccess => .fault .portAccess
    | .reg r => .next { s with received := s.received ++ [b.readPort r] }

/-- One load of `WAIT`'s loop (R87): it ends the first time `STATUS` shows `BUSY = 0`. `rest` is the
program after it. -/
def State.waitStep (s : State) (port : Nat) (rest : List HostOp) :
    Host.Outcome State Fault Refusal :=
  match s.block? port with
  | none => .fault .noWindow
  | some b => if b.busy then .next s else .next { s with program := rest }

/-- A host load of `n` bytes of BUF whose value is `v`. -/
def State.hostLoad (s : State) (n addr : Nat) (v : Word) : Host.Outcome State Fault Refusal :=
  if s.accessOk n addr then .next { s with received := s.received ++ [v] }
  else .fault .hostMemory

/-- A host store to `n` bytes of BUF that leaves `m`. It is the host's own store, so it makes no event
(R15). -/
def State.hostStore (s : State) (n addr : Nat) (m : Memory) : Host.Outcome State Fault Refusal :=
  if s.accessOk n addr then .next (s.setBuf m) else .fault .hostMemory

/-- `MRD` (R87), in the byte order of R59. -/
def State.memRead (s : State) (addr : Nat) : Host.Outcome State Fault Refusal :=
  s.hostLoad 4 addr (s.readWord addr)

/-- `MWR` (R87), in the byte order of R59. -/
def State.memStore (s : State) (addr : Nat) (v : Word) : Host.Outcome State Fault Refusal :=
  s.hostStore 4 addr (s.buf.writeWord s.params.hostEndian addr v)

/-- A host load of one byte of BUF (R59, log entry 33). -/
def State.byteRead (s : State) (addr : Nat) : Host.Outcome State Fault Refusal :=
  s.hostLoad 1 addr ((s.readByte addr).setWidth 32)

/-- A host load of one halfword of BUF (R59, log entry 33). -/
def State.halfRead (s : State) (addr : Nat) : Host.Outcome State Fault Refusal :=
  s.hostLoad 2 addr ((s.readHalf addr).setWidth 32)

/-- A host store of one byte of BUF (R59, log entry 33). -/
def State.byteStore (s : State) (addr : Nat) (v : Byte) : Host.Outcome State Fault Refusal :=
  s.hostStore 1 addr (s.buf.writeByte addr v)

/-- A host store of one halfword of BUF (R59, log entry 33). -/
def State.halfStore (s : State) (addr : Nat) (v : BitVec 16) : Host.Outcome State Fault Refusal :=
  s.hostStore 2 addr (s.buf.writeHalf s.params.hostEndian addr v)

/-- The host's step: its next primitive, one at a time and in program order (R65, R87). A host with
no program left has no step. -/
def hostStep (s : State) : Host.Outcome State Fault Refusal :=
  match s.program with
  | [] => .next s
  | .wr port width off v :: rest => State.portWrite { s with program := rest } port width off v
  | .rd port width off :: rest => State.portRead { s with program := rest } port width off
  | .wait port :: rest => s.waitStep port rest
  | .mrd addr :: rest => State.memRead { s with program := rest } addr.toNat
  | .mwr addr v :: rest => State.memStore { s with program := rest } addr.toNat v
  | .loadByte addr :: rest => State.byteRead { s with program := rest } addr.toNat
  | .loadHalf addr :: rest => State.halfRead { s with program := rest } addr.toNat
  | .storeByte addr v :: rest => State.byteStore { s with program := rest } addr.toNat v
  | .storeHalf addr v :: rest => State.halfStore { s with program := rest } addr.toNat v
  | .construct cp dp k :: rest => .next (State.construct { s with program := rest } cp dp k)

/-- The block whose sequencer fetches next: the one whose turn it is, else the first one. -/
def State.fetchId (s : State) : Nat :=
  match s.turn with
  | .sequencer id => id
  | _ => 0

/-- The state in which the word `wd` has just been written to `CMD` of that block (R79) and its
sequencer has the turn. -/
def State.loadCommand (s : State) (wd : Word) : State :=
  match s.block? s.fetchId with
  | some b => { s.setBlock s.fetchId (b.startCommand wd) with turn := .sequencer s.fetchId }
  | none => s

end Sys2Proof.Machine
end

