-- ==== Sys2Proof/Machine/Step.lean ====
section
/-! DEFINITION. One step of the machine: one atomic step of the agent whose turn it is (R17, R62,
R65), after which its answer to draws is used up and the turn passes on. -/

namespace Sys2Proof.Machine

/-- The sequencer's step: the row of the command it executes, or row X0, or none. -/
def sequencerStep (s : State) : Host.Outcome State Fault Refusal :=
  match s.fetch with
  | .idle => .next s
  | .illegal id b => .next (illegalRow id b s)
  | .command i => exec i s

/-- One step. -/
def step (s : State) : Host.Outcome State Fault Refusal :=
  match s.turn with
  | .host => advance (hostStep s)
  | .sequencer _ => advance (sequencerStep s)
  | .producer e m => advance (.next (producerStep e m s))

/-- `s` just after the command word with these bits was written to the command port, the sequencer
having the turn (log entry 9). -/
def State.withFetchWord (s : State) (nbits w : Nat) : State :=
  s.loadCommand (BitVec.ofNat 32 (w % 2 ^ nbits))

end Sys2Proof.Machine
end

