-- ==== Sys2Proof/Machine/Assembly.lean ====
section
/-! DEFINITION. The assembler: literals (R86), the lines of a host program (R85, R87), which lines are
well formed, and the port accesses that each line stands for (R88, R89). -/

namespace Sys2Proof.Machine

/-- One line of a host program (R85, R87, R89), its literals not yet checked. -/
inductive Line where
  | begin
  | end_
  | configure (rate : Int) (stereo : Bool)
  | read
  | readBuf (buf count : Int)
  | getSerIndex
  | configureMono (rate : Int)
  | configureStereo (rate : Int)
  | readw
  | check
  | wr (off v : Int)
  | rd (off : Int)
  | wait
  | mrd (addr : Int)
  | mwr (addr v : Int)
  /-- A label `name:`, or an empty line: it stands for no access. -/
  | label
  deriving DecidableEq, Repr

/-- A literal in `[0, 2^32)`: `<rate>` and `<buf>` (R85), and by the model's choice a primitive's `<v>`
and `<addr>` (log entry 28). R85 does not say whether `-0` is an unsigned literal: that the value alone is
checked, so that `CONFIGURE -0, mono` stands, is the model's choice, DESIGN CHOICE, log entry 28. -/
def unsignedLiteral (x : Int) : Bool := decide (0 ≤ x ∧ x < 2 ^ 32)

/-- A literal in `[-2^31, 2^31)` (R85). -/
def signedLiteral (x : Int) : Bool := decide (-2 ^ 31 ≤ x ∧ x < 2 ^ 31)

/-- An offset of the 64-byte PORT window (R53); as a literal's range, the model's choice (log
entry 28). -/
def offsetLiteral (x : Int) : Bool := decide (0 ≤ x ∧ x < 64)

/-- Every literal of the line is in its range; "an out-of-range literal is an assembly error" (R86). R85
gives the ranges of a command's operands. It gives none for a primitive's: that `<v>` and `<addr>` lie in
`[0, 2^32)` and `<off>` in `[0, 64)`, so that `WR 0x08, -1` is an assembly error, is the model's choice,
DESIGN CHOICE, log entry 28. -/
def Line.wf : Line → Bool
  | .begin | .end_ | .read | .getSerIndex | .readw | .check | .wait | .label => true
  | .configure rate _ => unsignedLiteral rate
  | .configureMono rate => unsignedLiteral rate
  | .configureStereo rate => unsignedLiteral rate
  | .readBuf buf count => unsignedLiteral buf && signedLiteral count
  | .wr off v => offsetLiteral off && unsignedLiteral v
  | .rd off => offsetLiteral off
  | .mrd addr => unsignedLiteral addr
  | .mwr addr v => unsignedLiteral addr && unsignedLiteral v

/-- A literal as a port or memory word, `v mod 2^32` (R88). -/
def literalWord (x : Int) : Word := BitVec.ofInt 32 x

/-- A 32-bit `WR` (R87). -/
def wrOp (port : Nat) (off : BitVec 6) (v : Word) : HostOp := .wr port 32 off v

/-- A 32-bit `RD` (R87). -/
def rdOp (port : Nat) (off : BitVec 6) : HostOp := .rd port 32 off

/-- A command macro: its operand writes, then the command word, then `WAIT` (R88). -/
def commandMacro (port : Nat) (i : Instr) : List HostOp := [wrOp port 0x00 (encode i), .wait port]

/-- `CONFIGURE r, mono|stereo` (R88). -/
def configureMacro (port : Nat) (rate : Int) (stereo : Bool) : List HostOp :=
  wrOp port 0x04 (literalWord rate) :: commandMacro port (.configure stereo)

/-- The accesses that a line stands for, in order (R88, R89), on the block `port`. -/
def Line.expand (port : Nat) : Line → List HostOp
  | .begin => commandMacro port .begin
  | .end_ => commandMacro port .end_
  | .configure rate stereo => configureMacro port rate stereo
  | .read => commandMacro port .read
  | .readBuf buf count =>
    wrOp port 0x0C (literalWord buf) :: wrOp port 0x08 (literalWord count) ::
      commandMacro port .readBuf
  | .getSerIndex => commandMacro port .getSerIndex
  | .configureMono rate => configureMacro port rate false
  | .configureStereo rate => configureMacro port rate true
  | .readw => commandMacro port .read ++ [rdOp port 0x14]
  | .check => [rdOp port 0x10]
  | .wr off v => [wrOp port (BitVec.ofInt 6 off) (literalWord v)]
  | .rd off => [rdOp port (BitVec.ofInt 6 off)]
  | .wait => [.wait port]
  | .mrd addr => [.mrd (literalWord addr)]
  | .mwr addr v => [.mwr (literalWord addr) (literalWord v)]
  | .label => []

/-- A program's accesses, or `none` on an assembly error, which "produces no code" (R86). -/
def assemble (port : Nat) (lines : List Line) : Option (List HostOp) :=
  if lines.all Line.wf then some (lines.flatMap (Line.expand port)) else none

/-! ## Program text -/

/-- A decimal digit's value. -/
def decDigit (c : Char) : Option Nat :=
  if 48 ≤ c.toNat ∧ c.toNat ≤ 57 then some (c.toNat - 48) else none

/-- A hexadecimal digit's value. R86 does not give the digits' case: that both cases stand is the model's
choice, DESIGN CHOICE, log entry 28. -/
def hexDigit (c : Char) : Option Nat :=
  if 48 ≤ c.toNat ∧ c.toNat ≤ 57 then some (c.toNat - 48)
  else if 97 ≤ c.toNat ∧ c.toNat ≤ 102 then some (c.toNat - 87)
  else if 65 ≤ c.toNat ∧ c.toNat ≤ 70 then some (c.toNat - 55)
  else none

/-- Decimal digits, with `_` only between digits (R86); the flag says whether a digit came last. R86 does
not say whether several `_` may stand together: that each directly follows a digit, so that `1__000` is an
assembly error, is the model's choice, DESIGN CHOICE, log entry 28. -/
def decDigits : List Char → Nat → Bool → Option Nat
  | [], n, afterDigit => if afterDigit then some n else none
  | c :: t, n, afterDigit =>
    if c = '_' then (if afterDigit then decDigits t n false else none)
    else
      match decDigit c with
      | some d => decDigits t (10 * n + d) true
      | none => none

/-- Hexadecimal digits, at least one (R86). -/
def hexDigits : List Char → Nat → Bool → Option Nat
  | [], n, some? => if some? then some n else none
  | c :: t, n, _ =>
    match hexDigit c with
    | some d => hexDigits t (16 * n + d) true
    | none => none

/-- A literal: `0x` and hex digits, or `[-]digits` (R86). R86 counts labels as a form of literal, and no rule
says whether a label may stand as an operand or what its value is: that it may not, so that a label there is
an assembly error, is the model's choice, DESIGN CHOICE, log entry 28. -/
def parseLiteral : List Char → Option Int
  | '0' :: 'x' :: t => (hexDigits t 0 false).map Int.ofNat
  | '-' :: t => (decDigits t 0 false).map (fun n => -(n : Int))
  | t => (decDigits t 0 false).map Int.ofNat

/-- Put the token being read, if any, before the tokens already read. -/
def pushToken (current : List Char) (rest : List (List Char)) : List (List Char) :=
  if current.isEmpty then rest else current :: rest

/-- A character between tokens. No rule says what separates the tokens of a line: that a space and a tab do,
and nothing else, is the model's choice, DESIGN CHOICE, log entry 28. -/
def isBlank (c : Char) : Bool := c == ' ' || c == '\t'

/-- The tokens of a line up to a comment: blanks separate, a comma is a token of its own (R85). R85 makes
`;` start a comment, but the program P3 of 95_test_vectors.md writes `WR 0x00, 0x00000007 ; WAIT` for two
primitives, and 90_conflicts.md names no winner: that `;` always starts a comment, so that this line is the
`WR` alone, is the model's choice, DESIGN CHOICE, log entry 28. -/
def tokens : List Char → List Char → List (List Char)
  | [], current => pushToken current []
  | c :: t, current =>
    if c = ';' then pushToken current []
    else if isBlank c then pushToken current (tokens t [])
    else if c = ',' then pushToken current ([','] :: tokens t [])
    else tokens t (current ++ [c])

/-- `<mono|stereo>` (R85). -/
def parseMode (t : List Char) : Option Bool :=
  if t = ['m', 'o', 'n', 'o'] then some false
  else if t = ['s', 't', 'e', 'r', 'e', 'o'] then some true
  else none

/-- `<buf>`: a literal, or the keyword `null` (R85). -/
def parseBuf (t : List Char) : Option Int :=
  if t = ['n', 'u', 'l', 'l'] then some 0 else parseLiteral t

/-- Two operands with a comma between them. -/
def twoOperands : List (List Char) → Option (List Char × List Char)
  | [a, [','], b] => some (a, b)
  | _ => none

/-- A loaded value may be named, `-> x`; the host's list of received values keeps it by position. R87 and R89
show the name on loads, `READW` and `CHECK`, and no rule says which lines may carry or omit it: that every
line with at most one operand may carry one, also a line that loads nothing, that none must, and that `->` and
the name are one token each, is the model's choice, DESIGN CHOICE, log entry 28. -/
def dropName : List (List Char) → List (List Char)
  | [['-', '>'], _] => []
  | [a, ['-', '>'], _] => [a]
  | ts => ts

/-- The last character is a colon: a label (R85). R86 says that labels are identifiers and gives no form of
one: that any one token ending in a colon is a label, `:` alone and `1+:` among them, and that two lines may
have the same one, is the model's choice, DESIGN CHOICE, log entry 28. -/
def isLabel (t : List Char) : Bool := t.getLast? == some ':'

/-- `<off>`: a literal, or a register's name for its offset (R54). R87's text writes `<off>` and its example
`rd STATUS`: that both stand is the model's choice, DESIGN CHOICE, log entry 28. -/
def parseOffset (t : List Char) : Option Int :=
  if t = ['C', 'M', 'D'] then some 0x00
  else if t = ['A', 'R', 'G', '_', 'R', 'A', 'T', 'E'] then some 0x04
  else if t = ['A', 'R', 'G', '_', 'C', 'O', 'U', 'N', 'T'] then some 0x08
  else if t = ['A', 'R', 'G', '_', 'B', 'U', 'F'] then some 0x0C
  else if t = ['S', 'T', 'A', 'T', 'U', 'S'] then some 0x10
  else if t = ['R', 'E', 'S', '_', 'W', 'O', 'R', 'D'] then some 0x14
  else if t = ['C', 'F', 'G', '_', 'G', 'D', 'I', 'V'] then some 0x18
  else if t = ['C', 'F', 'G', '_', 'S', 'D', 'I', 'V'] then some 0x1C
  else if t = ['C', 'F', 'G', '_', 'F', 'B', 'C', 'K'] then some 0x20
  else parseLiteral t

/-- The token is a primitive's mnemonic, `lower` in lower case. R87 lists the primitives in capitals and its
example is `rd STATUS -> x`: that both cases stand, and no mixed one, is the model's choice, DESIGN CHOICE,
log entry 28. -/
def isPrimitive (upper lower t : List Char) : Bool := t == upper || t == lower

/-- A line with no operand, if the token is such a mnemonic (R85, R87, R89). -/
def noOperandLine (t : List Char) : Option Line :=
  if t = ['B', 'E', 'G', 'I', 'N'] then some .begin
  else if t = ['E', 'N', 'D'] then some .end_
  else if t = ['R', 'E', 'A', 'D'] then some .read
  else if t = ['G', 'E', 'T', '_', 'S', 'E', 'R', '_', 'I', 'N', 'D', 'E', 'X'] then
    some .getSerIndex
  else if t = ['R', 'E', 'A', 'D', 'W'] then some .readw
  else if t = ['C', 'H', 'E', 'C', 'K'] then some .check
  else if isPrimitive ['W', 'A', 'I', 'T'] ['w', 'a', 'i', 't'] t then some .wait
  else if isLabel t then some .label
  else none

/-- A line with one operand (R87, R89). -/
def oneOperandLine (t a : List Char) : Option Line :=
  if isPrimitive ['R', 'D'] ['r', 'd'] t then (parseOffset a).map .rd
  else if isPrimitive ['M', 'R', 'D'] ['m', 'r', 'd'] t then (parseLiteral a).map .mrd
  else if t = ['C', 'O', 'N', 'F', 'I', 'G', 'U', 'R', 'E', '_', 'M', 'O', 'N', 'O'] then
    (parseLiteral a).map .configureMono
  else if t = ['C', 'O', 'N', 'F', 'I', 'G', 'U', 'R', 'E', '_', 'S', 'T', 'E', 'R', 'E', 'O'] then
    (parseLiteral a).map .configureStereo
  else none

/-- A line with two operands (R85, R87). -/
def twoOperandLine (t a b : List Char) : Option Line :=
  if t = ['C', 'O', 'N', 'F', 'I', 'G', 'U', 'R', 'E'] then
    (parseLiteral a).bind (fun r => (parseMode b).map (fun m => .configure r m))
  else if t = ['R', 'E', 'A', 'D', '_', 'B', 'U', 'F'] then
    (parseBuf a).bind (fun p => (parseLiteral b).map (fun n => .readBuf p n))
  else if isPrimitive ['W', 'R'] ['w', 'r'] t then
    (parseOffset a).bind (fun o => (parseLiteral b).map (fun v => .wr o v))
  else if isPrimitive ['M', 'W', 'R'] ['m', 'w', 'r'] t then
    (parseLiteral a).bind (fun o => (parseLiteral b).map (fun v => .mwr o v))
  else none

/-- A line from its text, or `none` on an assembly error (R85, R86). -/
def parseLine (text : List Char) : Option Line :=
  match tokens text [] with
  | [] => some .label
  | t :: ts =>
    match dropName ts with
    | [] => noOperandLine t
    | [a] => oneOperandLine t a
    | rest => (twoOperands rest).bind (fun p => twoOperandLine t p.1 p.2)

end Sys2Proof.Machine
end

