-- ==== Sys2Proof/Safety.lean ====
section
/-! DEFINITION. Which agents have a step, how a run ends (R14, R171, R172, R199), fairness (R157), and
the register-write pattern of a stretch of the trace (R15). -/

namespace Sys2Proof.Machine

/-- Block `id`, which is `b`, stands at `pos` and its sequencer has the turn. -/
def State.atRow (s : State) (id : Nat) (b : Block) (pos : Position) : Prop :=
  s.turn = .sequencer id ∧ s.block? id = some b ∧ b.seq = some pos

/-- The sequencer at `pos` has a step: a poll row only while the flag reads 1, Q5 only where the store
is admitted, the rows that name `g`, `s` or `f` only where `r` is `Ok`. -/
def State.positionEnabled (s : State) (b : Block) : Position → Bool
  | .read .rd1 => s.ready b.e b.m
  | .readBuf .q3 => s.ready b.e b.m
  | .readBuf .q5 => s.memOk b.storeAddr
  | .configure .c8 | .configure .c11 | .configure .c19 =>
    match b.work.r with
    | .ok _ _ _ => true
    | .fail _ => false
  | _ => true

/-- The host has a step: `WAIT` on a busy block holds (R87). -/
def State.hostEnabled (s : State) : Bool :=
  match s.program with
  | [] => false
  | .wait port :: _ =>
    match s.block? port with
    | some b => !b.busy
    | none => true
  | _ => true

/-- The sequencer of block `id` has a step. -/
def State.sequencerEnabled (s : State) (id : Nat) : Bool :=
  match s.block? id with
  | none => false
  | some b =>
    match b.seq with
    | none => false
    | some pos => s.positionEnabled b pos

/-- The agent has a step, which may be a fault (R14, R17). -/
def State.enabled (s : State) : Agent → Bool
  | .host => s.hostEnabled
  | .sequencer id => s.sequencerEnabled id
  | .producer e m => decide (e < s.params.nEngines) && s.rxActive e m

/-- Block `id` holds at a poll row: RD1 or Q3 with the flag 0 (R147). -/
def State.holdsAtPoll (s : State) (id : Nat) : Bool :=
  match s.block? id with
  | none => false
  | some b => (b.seq == some (.read .rd1) || b.seq == some (.readBuf .q3)) && !s.ready b.e b.m

/-- Block `id` is stuck at Q5 (R171). -/
def State.stuckAtStore (s : State) (id : Nat) : Bool :=
  match s.block? id with
  | none => false
  | some b => b.seq == some (.readBuf .q5) && !s.memOk b.storeAddr

/-- The run has ended **final** (R199). -/
def State.final (s : State) : Prop :=
  s.program = [] ∧ ∀ id b, s.block? id = some b → b.seq = none

/-- The run has ended in a **fault** (R14, R199): the next step is one. -/
def State.faults (s : State) : Prop := ∃ f, step s = .fault f

/-- The run has ended **stuck** (R199): a sequencer is at a row it can never take, and no agent but a
producer has a step. -/
def State.stuck (s : State) : Prop :=
  (∃ id, s.stuckAtStore id = true) ∧ s.enabled .host = false ∧
    ∀ id, s.enabled (.sequencer id) = false

/-- The run has ended as a **hang** (R172, R199): a sequencer holds, none is stuck, and no agent has a
step. R199 says that a run ends in exactly one way, and both its descriptions fit where one sequencer is
stuck and another holds: that this end is stuck is the model's choice, DESIGN CHOICE, log entry 35. -/
def State.hang (s : State) : Prop :=
  (∃ id, s.holdsAtPoll id = true) ∧ (∀ id, s.stuckAtStore id = false) ∧ ∀ a, s.enabled a = false

/-- An unending run. -/
def Run (r : Nat → State) : Prop := ∀ n, step (r n) = .next (r (n + 1))

/-- Weak fairness for an agent (R157): if it stays enabled from some point on, it takes a step. The
step function admits every schedule, also unfair ones. -/
def WeaklyFair (r : Nat → State) (a : Agent) : Prop :=
  ∀ n, (∀ k, n ≤ k → (r k).enabled a = true) → ∃ k, n ≤ k ∧ (r k).turn = a

/-- The events of the register-write pattern: `Own`, `Wr`, `Sync` and `Call` (R15). -/
def Event.inPattern : Event → Bool
  | .own _ _ | .wrCtrl _ _ _ | .wrClk _ _ _ | .wrFmt _ _ _ | .sync _ _ _ | .call _ _ => true
  | .rdReady _ _ _ | .rdData _ _ _ | .deliver _ _ _ | .bufWr _ _ => false

/-- The register-write pattern of a trace (R15). -/
def pattern (t : List Event) : List Event := t.filter Event.inPattern

/-- The nine events of a BEGIN whose every draw is `ok` (R117). -/
def beginPattern (id : Nat) (b : Block) : List Event :=
  [.own b.e (some id), .call (.pinMux b.clockPin (.clk b.e b.c)) .ok,
    .call (.pinMux b.dataPin (.data b.e b.m)) .ok, .wrCtrl b.e .swrst true, .sync b.e .swrst .ok,
    .wrCtrl b.e (.seren b.m) false, .sync b.e (.seren b.m) .ok,
    .wrCtrl b.e (.cken b.c) false, .sync b.e (.cken b.c) .ok]

/-- The nine events of an END from a state other than `UNINIT` with every draw `ok` (R122). -/
def endPattern (b : Block) : List Event :=
  [.wrCtrl b.e (.seren b.m) false, .sync b.e (.seren b.m) .ok,
    .wrCtrl b.e (.cken b.c) false, .sync b.e (.cken b.c) .ok,
    .wrCtrl b.e .enable false, .sync b.e .enable .ok,
    .call (.pinRelease b.dataPin) .ok, .call (.pinRelease b.clockPin) .ok, .own b.e none]

/-- The 17 events of a CONFIGURE whose `Calc` gives `Ok(g, s, f)` and whose every draw is `ok`
(R137). -/
def configurePattern (p : Params) (b : Block) (stereo : Bool) (g divisor : Nat) : List Event :=
  [.wrCtrl b.e (.seren b.m) false, .sync b.e (.seren b.m) .ok,
    .wrCtrl b.e (.cken b.c) false, .sync b.e (.cken b.c) .ok,
    .wrCtrl b.e .enable false, .sync b.e .enable .ok,
    .call (.genConfigure b.k.toNat .ref g) .ok, .call (.genEnable b.k.toNat) .ok,
    .call (.genConnect b.e b.c b.k.toNat) .ok, .wrClk b.e b.c divisor,
    .wrFmt b.e b.m (frameFormat p stereo b.c), .wrCtrl b.e .enable true, .sync b.e .enable .ok,
    .wrCtrl b.e (.cken b.c) true, .sync b.e (.cken b.c) .ok,
    .wrCtrl b.e (.seren b.m) true, .sync b.e (.seren b.m) .ok]

/-- The parameter sets that conform to the source's scenarios (R9). -/
def Params.conforms (p : Params) : Prop :=
  (∃ g s f, calculate p 16000 = .ok g s f) ∧ p.fSckMax < (2 ^ 32 - 1) * p.osr

/-! ## What a command leaves alone -/

/-- The fields of a block that no command writes: PinBinding and the unit indices (R22), the PORT base,
and the operand registers, which the host alone writes (R25). -/
def Block.sameInputs (b b' : Block) : Prop :=
  b'.clockPin = b.clockPin ∧ b'.dataPin = b.dataPin ∧ b'.k = b.k ∧ b'.e = b.e ∧ b'.c = b.c ∧
    b'.m = b.m ∧ b'.portBase = b.portBase ∧ b'.cmd = b.cmd ∧ b'.argRate = b.argRate ∧
    b'.argCount = b.argCount ∧ b'.argBuf = b.argBuf

/-- `t` is `s` outside block `id`, engine `e` with its owner and routes, the generators, host memory and
the trace. -/
def State.sameElsewhere (s t : State) (id e : Nat) : Prop :=
  t.params = s.params ∧ t.nextId = s.nextId ∧ t.admitted = s.admitted ∧ t.program = s.program ∧
    t.received = s.received ∧ t.turn = s.turn ∧ t.script = s.script ∧ t.drawn = s.drawn ∧
    (∀ j, j ≠ id → t.block? j = s.block? j) ∧
    (∀ j, j ≠ e → t.engine j = s.engine j ∧ t.owner j = s.owner j ∧ ∀ c, t.route j c = s.route j c)

/-- The words, divisors and formats of an engine are as before, and no ready flag has become 1. -/
def Engine.sameFormats (en en' : Engine) : Prop :=
  en'.data = en.data ∧ en'.clk = en.clk ∧ en'.fmt = en.fmt ∧
    ∀ m, en'.rxrdy.get m = true → en.rxrdy.get m = true

/-- `CTRL.SWRST`, and all of an engine's units other than clock unit `c` and serializer `m`, are as before
(R51). -/
def Engine.sameOtherUnits (en en' : Engine) (c m : UnitIx) : Prop :=
  en'.ctrl.swrst = en.ctrl.swrst ∧ en'.syncbusy.swrst = en.syncbusy.swrst ∧
    (∀ c', c' ≠ c → en'.ctrl.cken.get c' = en.ctrl.cken.get c' ∧
      en'.syncbusy.cken.get c' = en.syncbusy.cken.get c' ∧ en'.clk.get c' = en.clk.get c') ∧
    ∀ m', m' ≠ m → en'.ctrl.seren.get m' = en.ctrl.seren.get m' ∧
      en'.syncbusy.seren.get m' = en.syncbusy.seren.get m' ∧ en'.fmt.get m' = en.fmt.get m' ∧
      en'.rxrdy.get m' = en.rxrdy.get m' ∧ en'.data.get m' = en.data.get m'

/-- Every byte of host memory reads as before. -/
def State.sameMemory (s t : State) : Prop := ∀ a, t.readByte a = s.readByte a

/-- No generator and no routing entry has changed. -/
def State.sameClocks (s t : State) : Prop :=
  (∀ k, t.gen k = s.gen k) ∧ ∀ e c, t.route e c = s.route e c

/-! ## Invariants -/

/-- BEGIN's rows between the ownership test-and-set and its end: the engine is owned and the lifecycle
is still `UNINIT` (R124). -/
def Position.holdsEngine : Position → Bool
  | .begin .b0 | .begin .b1 => false
  | .begin _ => true
  | _ => false

/-- The lifecycle that the checks of a command's first rows leave for its later rows. -/
def Block.rowOk (p : Params) (b : Block) : Position → Bool
  | .begin .b0 => true
  | .begin _ => b.lifecycle == .uninit
  | .end_ .e0 => true
  | .end_ _ => b.lifecycle != .uninit
  | .configure .c0 => true
  | .configure _ => b.lifecycle == .idle || b.lifecycle == .running
  | .read .rd0 => true
  | .read _ => !p.checkedRead || b.lifecycle == .running
  | .readBuf .q0 | .readBuf .q1 => true
  | .readBuf _ => !p.checkedRead || b.lifecycle == .running
  | .getSerIndex | .illegal => true

/-- Ownership (R124): a block owns its engine exactly when it is out of `UNINIT`, or inside BEGIN past
the test-and-set; and an `instanceId` not yet given out names no block and owns nothing. -/
def State.OwnershipInv (s : State) : Prop :=
  (∀ id b, s.block? id = some b →
    (s.owner b.e = some id ↔
      (b.lifecycle ≠ .uninit ∨ ∃ pos, b.seq = some pos ∧ pos.holdsEngine = true)) ∧
    ∀ pos, b.seq = some pos → b.rowOk s.params pos = true) ∧
  ∀ id, s.nextId ≤ id → s.block? id = none ∧ ∀ e, s.owner e ≠ some id

/-- The synchronised write that is pending at a `SyncWait` row. -/
def Block.pendingAt (b : Block) : Position → Option (CtrlField × Bool)
  | .begin .b5 => some (.swrst, true)
  | .begin .b7 | .end_ .e2 | .configure .c3 => some (.seren b.m, false)
  | .begin .b9 | .end_ .e4 | .configure .c5 => some (.cken b.c, false)
  | .end_ .e6 | .configure .c7 => some (.enable, false)
  | .configure .c14 => some (.enable, true)
  | .configure .c16 => some (.cken b.c, true)
  | .configure .c18 => some (.seren b.m, true)
  | _ => none

/-- Synchronisation (R45, R66): at a `SyncWait` row that row's write, and no other, is pending in the
block's engine, with its `SYNCBUSY` bit 1; and no write is pending in any engine otherwise. -/
def State.SyncInv (s : State) : Prop :=
  (∀ id b pos f v, s.block? id = some b → b.seq = some pos → b.pendingAt pos = some (f, v) →
    (s.engine b.e).pending = (CtrlFields.all none).set f (some v) ∧
      (s.engine b.e).syncbusy.get f = true) ∧
  ∀ e, (s.engine e).pending ≠ CtrlFields.all none →
    ∃ id b pos, s.block? id = some b ∧ b.e = e ∧ b.seq = some pos ∧ (b.pendingAt pos).isSome = true

/-- A row's place in CONFIGURE's table. -/
def ConfigureRow.index : ConfigureRow → Nat
  | .c0 => 0 | .c1 => 1 | .c2 => 2 | .c3 => 3 | .c4 => 4 | .c5 => 5 | .c6 => 6 | .c7 => 7
  | .c8 => 8 | .c9 => 9 | .c10 => 10 | .c11 => 11 | .c12 => 12 | .c13 => 13 | .c14 => 14
  | .c15 => 15 | .c16 => 16 | .c17 => 17 | .c18 => 18 | .c19 => 19

/-- The disable phase's result (R130, R142, R143): from the ok of C3 to the ok of C18 the serializer is
effectively off, from C5 to C16 the clock unit, from C7 to C14 the engine. -/
def State.DisableInv (s : State) : Prop :=
  ∀ id b row, s.block? id = some b → b.seq = some (.configure row) →
    (4 ≤ row.index → row.index ≤ 18 → (s.engine b.e).ctrl.seren.get b.m = false) ∧
    (6 ≤ row.index → row.index ≤ 16 → (s.engine b.e).ctrl.cken.get b.c = false) ∧
    (8 ≤ row.index → row.index ≤ 14 → (s.engine b.e).ctrl.enable = false)

/-- The block's engine is in the reset state of R49 as far as `CTRL`, `SYNCBUSY` and `RXRDY` go, but for the
busy bit of a write that BEGIN waits for: after BEGIN's reset, and in `IDLE` until CONFIGURE or END writes
the engine. -/
def Block.engineClean (b : Block) : Bool :=
  match b.lifecycle, b.seq with
  | .uninit, some (.begin .b6) | .uninit, some (.begin .b7) | .uninit, some (.begin .b8)
  | .uninit, some (.begin .b9) | .uninit, some (.begin .b10) => true
  | .idle, none => true
  | .idle, some (.begin _) | .idle, some (.read _) | .idle, some (.readBuf _)
  | .idle, some .getSerIndex | .idle, some .illegal => true
  | .idle, some (.configure .c0) | .idle, some (.configure .c1) => true
  | .idle, some (.end_ .e0) => true
  | _, _ => false

/-- `SYNCBUSY` of a block's clean engine: all 0, but for the field whose `SyncWait` the block stands at. -/
def Block.cleanBusy (b : Block) : CtrlFields Bool :=
  match b.seq.bind b.pendingAt with
  | some (f, _) => (CtrlFields.all false).set f true
  | none => CtrlFields.all false

/-- The engine of an `IDLE` block (R49, R116, R160): `CTRL`, `SYNCBUSY` and both ready flags are 0; and so is
the engine of a block in BEGIN past the reset, but for the busy bit of the write it waits for. -/
def State.IdleInv (s : State) : Prop :=
  ∀ id b, s.block? id = some b → b.engineClean = true →
    (s.engine b.e).ctrl = CtrlFields.all false ∧ (s.engine b.e).rxrdy = ⟨false, false⟩ ∧
    (s.engine b.e).syncbusy = b.cleanBusy ∧
    (b.lifecycle = .idle → (s.engine b.e).syncbusy = CtrlFields.all false)

/-- ClockConfig (R23): while valid it is a result of the calculator, otherwise it is `(0, 0, 0)`; it is
valid exactly in `RUNNING`; and past C1 the working register `r` holds the calculator's `Ok` for the
latched rate. -/
def State.ClockInv (s : State) : Prop :=
  ∀ id b, s.block? id = some b →
    (b.cfgValid = true → ∃ rate, calculate s.params rate = .ok b.cfgG b.cfgS b.cfgF) ∧
    (b.cfgValid = false → b.cfgG = 0 ∧ b.cfgS = 0 ∧ b.cfgF = 0) ∧
    (b.cfgValid = true ↔ b.lifecycle = .running) ∧
    ∀ row, b.seq = some (.configure row) → 2 ≤ row.index →
      ∃ g q f, b.work.r = .ok g q f ∧ calculate s.params b.work.rate.toNat = .ok g q f

/-! ## Runs of one block's sequencer -/

/-- Every draw is `ok` and the turn stays with the sequencer of block `id`. -/
def Answer.okFor (id : Nat) (a : Answer) : Prop :=
  a.sync = .ok ∧ a.call = .ok ∧ a.agent = .sequencer id

/-- The next `n` answers are given in advance, and each is `ok` with the turn staying with block
`id`. -/
def State.okScript (s : State) (id n : Nat) : Prop :=
  n ≤ s.script.length ∧ ∀ a ∈ s.script.take n, a.okFor id

end Sys2Proof.Machine
end

