-- ==== Sys2Proof/Certificates/Slice0/Obligations.lean ====
section
/-! DEFINITION. The statements for the provers. Each formalises rules of spec/, named in its docstring;
a clause that rests on the model's own choice says so and names the log entry. -/

open Sys2Proof Sys2Proof.Machine

/-! ## Command words -/

/-- R78, R82: a word decodes to a command exactly when it is that command's word, of which there are
seven in all; a word with `RSV != 0`, or with `S = 1` on another opcode than CONFIGURE's, is ILLEGAL. -/
def Obligations.DecodeExactlyTheSevenWords : Prop :=
  (∀ (wd : Word) (i : Instr), decode wd = .ok i ↔ wd = encode i) ∧
  (∀ i : Instr, i.wf = true) ∧
  encode .begin = 0x00000001 ∧ encode .end_ = 0x00000002 ∧
  encode (.configure false) = 0x00000003 ∧ encode (.configure true) = 0x00000103 ∧
  encode .read = 0x00000004 ∧ encode .readBuf = 0x00000005 ∧ encode .getSerIndex = 0x00000006 ∧
  ∀ wd : Word, (reservedField wd ≠ 0 ∨ (stereoField wd = true ∧ opcodeField wd ≠ 0x03)) →
    ∃ why, decode wd = .error why

/-- 95_test_vectors.md 2.1: words of every family, and words that are ILLEGAL. -/
def Obligations.DecodeVectors : Prop :=
  decode 0x00000001 = .ok .begin ∧ decode 0x00000002 = .ok .end_ ∧
  decode 0x00000103 = .ok (.configure true) ∧ decode 0x00000004 = .ok .read ∧
  decode 0x00000005 = .ok .readBuf ∧ decode 0x00000006 = .ok .getSerIndex ∧
  decode 0x00000000 = .error .unassignedOpcode ∧ decode 0x00000007 = .error .unassignedOpcode ∧
  decode 0x00000101 = .error .stereoNotAllowed ∧ decode 0x00000303 = .error .reservedBits ∧
  decode 0x80000001 = .error .reservedBits

/-- R79: a host write to `CMD` while `BUSY` is 0 stores the word, sets `seq` to the first row of what it
decodes to, latches the stereo flag of a CONFIGURE, and leaves the rest, `RESULT` and `ERRCODE` among it;
while `BUSY` is 1 it raises `F_CONCURRENT`. -/
def Obligations.CommandWriteStartsCommand : Prop :=
  ∀ (s : State) (port : Nat) (b : Block) (wd : Word) (rest : List HostOp),
    s.turn = .host → s.program = .wr port 32 0x00 wd :: rest → s.block? port = some b →
    (b.seq ≠ none → step s = .fault .concurrent) ∧
    (b.seq = none → ∃ b' : Block,
      step s = .next (({ s with program := rest }.setBlock port b').nextAnswer) ∧
      b' = { b with cmd := wd, seq := b'.seq, work := b'.work } ∧
      b'.work = { b.work with st := b'.work.st } ∧
      ((∀ stereo, decode wd ≠ .ok (.configure stereo)) → b'.work.st = b.work.st) ∧
      (decode wd = .ok .begin → b'.seq = some (.begin .b0)) ∧
      (decode wd = .ok .end_ → b'.seq = some (.end_ .e0)) ∧
      (∀ stereo, decode wd = .ok (.configure stereo) →
        b'.seq = some (.configure .c0) ∧ b'.work.st = stereo) ∧
      (decode wd = .ok .read → b'.seq = some (.read .rd0)) ∧
      (decode wd = .ok .readBuf → b'.seq = some (.readBuf .q0)) ∧
      (decode wd = .ok .getSerIndex → b'.seq = some .getSerIndex) ∧
      (∀ why, decode wd = .error why → b'.seq = some .illegal))

/-- R29, R79: after the word `wd` was written to the command port, the sequencer's step is `exec` of the
command that `wd` decodes to, after which the answer is used up and the turn passes on; and so it is
at every later row of the command. -/
def Obligations.StepRunsTheDecodedCommand : Prop :=
  (∀ (s : State) (b : Block) (wd : Word) (i : Instr),
    s.block? s.fetchId = some b → decode wd = .ok i →
    step (s.loadCommand wd) = advance (exec i (s.loadCommand wd))) ∧
  ∀ (s : State) (id : Nat) (b : Block) (pos : Position) (i : Instr),
    s.atRow id b pos → pos.instr b.work.st = some i → step s = advance (exec i s)

/-- R81: an ILLEGAL command finishes `E_ILLEGAL` and changes nothing else: no other field of the block,
no engine register, no BUF byte, no platform table, no event. -/
def Obligations.IllegalCommandOnlyFinishes : Prop :=
  ∀ (s : State) (id : Nat) (b : Block), s.atRow id b .illegal →
    ∃ t, step s = .next t.nextAnswer ∧
      t.block? id = some { b with errCode := .illegal, result := false, seq := none } ∧
      s.sameElsewhere t id b.e ∧ s.sameMemory t ∧ s.sameClocks t ∧
      t.engine b.e = s.engine b.e ∧ t.owner b.e = s.owner b.e ∧ t.trace = s.trace

/-! ## The command port -/

/-- R54, R63, R69, R87: a 32-bit host load returns the register at its offset and changes nothing of the
machine. `WAIT` goes on exactly when `BUSY` reads 0 and else holds, and changes nothing but the host's
program. -/
def Obligations.PortReadReturnsRegister : Prop :=
  (∀ (s : State) (port : Nat) (b : Block) (rest : List HostOp),
    s.turn = .host → s.program = .wait port :: rest → s.block? port = some b →
    (b.status.getLsbD 0 = true → step s = .next s.nextAnswer) ∧
    (b.status.getLsbD 0 = false → step s = .next ({ s with program := rest }.nextAnswer))) ∧
  ∀ (s : State) (port : Nat) (b : Block) (off : BitVec 6) (rest : List HostOp),
    s.turn = .host → s.program = .rd port 32 off :: rest → s.block? port = some b →
    ∀ v : Word,
      (off = 0x00 ∧ v = b.cmd ∨ off = 0x04 ∧ v = b.argRate ∨ off = 0x08 ∧ v = b.argCount ∨
        off = 0x0C ∧ v = b.argBuf ∨ off = 0x10 ∧ v = b.status ∨ off = 0x14 ∧ v = b.resWord ∨
        off = 0x18 ∧ v = BitVec.ofNat 32 b.cfgG ∨ off = 0x1C ∧ v = BitVec.ofNat 32 b.cfgS ∨
        off = 0x20 ∧ v = BitVec.ofNat 32 b.cfgF) →
      step s = .next
        ({ s with program := rest, received := s.received ++ [v] }.nextAnswer)

/-- R53, R55: a host access at offsets `0x24` to `0x3F` raises `F_PORT_RESERVED`; any other that is not
32 bits wide or not at a multiple of 4 raises `F_PORT_ACCESS`. Which fault is named where both hold,
and that an access is judged by its first byte's offset, is the model's choice (log entry 15). -/
def Obligations.UndefinedPortAccessFaults : Prop :=
  ∀ (s : State) (port width : Nat) (b : Block) (off : BitVec 6) (v : Word) (rest : List HostOp),
    s.turn = .host → s.block? port = some b →
    (s.program = .wr port width off v :: rest ∨ s.program = .rd port width off :: rest) →
    (0x24 ≤ off.toNat → step s = .fault .portReserved) ∧
    (off.toNat < 0x24 → (width ≠ 32 ∨ off.toNat % 4 ≠ 0) → step s = .fault .portAccess)

/-- R25, R26, R27, R28, R55: the ARG registers take a host write while `BUSY` is 0, and a write while
`BUSY` is 1 raises `F_CONCURRENT`; a write to a read-only register is ignored. -/
def Obligations.PortRegisterWrites : Prop :=
  ∀ (s : State) (port : Nat) (b : Block) (off : BitVec 6) (v : Word) (rest : List HostOp),
    s.turn = .host → s.program = .wr port 32 off v :: rest → s.block? port = some b →
    (∀ b' : Block,
      (off = 0x04 ∧ b' = { b with argRate := v } ∨ off = 0x08 ∧ b' = { b with argCount := v } ∨
        off = 0x0C ∧ b' = { b with argBuf := v }) →
      (b.seq ≠ none → step s = .fault .concurrent) ∧
      (b.seq = none →
        step s = .next ({ s with program := rest }.setBlock port b').nextAnswer)) ∧
    ((off = 0x10 ∨ off = 0x14 ∨ off = 0x18 ∨ off = 0x1C ∨ off = 0x20) →
      ∃ t, step s = .next t.nextAnswer ∧ (∀ j, t.block? j = s.block? j) ∧
        t.program = rest ∧ t.received = s.received ∧ s.sameMemory t ∧ s.sameClocks t ∧
        (∀ e, t.engine e = s.engine e ∧ t.owner e = s.owner e) ∧ t.trace = s.trace)

/-- R27, R31, with the codes' numbers of R165 and the lifecycle's of R20: the fields of `STATUS`. -/
def Obligations.StatusFields : Prop :=
  ∀ b : Block,
    (b.status.getLsbD 0 = true ↔ b.seq ≠ none) ∧
    b.status.getLsbD 1 = b.result ∧
    b.status.extractLsb' 2 2 = 0 ∧
    b.status.extractLsb' 4 4 =
      (match b.errCode with
        | .none => 0 | .config => 1 | .bind => 2 | .hwsync => 3 | .arg => 4 | .state => 5
        | .illegal => 6) ∧
    b.status.extractLsb' 8 2 =
      (match b.lifecycle with
        | .uninit => 0 | .idle => 1 | .running => 2 | .indeterminate => 3) ∧
    (b.status.getLsbD 10 = true ↔ b.chMode = .stereo) ∧
    b.status.getLsbD 11 = b.cfgValid ∧
    b.status.extractLsb' 12 20 = 0

/-- R59: the host's loads of a byte or a halfword of a stored word see the word's bytes in the order of
`HOST_ENDIAN`, and a load of the whole word sees the word (R87); its stores change exactly the bytes stored
to; and no step switches the byte order. That a byte or halfword reaches the host zero-extended, that the
host may store one, and the fault where an access is not admitted are the model's choice (log entries 16,
17 and 33). -/
def Obligations.HostSeesTheStoredBytes : Prop :=
  (∀ (s : State) (addr j n : Nat) (w a v : Word) (op : HostOp) (rest : List HostOp),
    s.turn = .host → s.program = op :: rest → a.toNat = addr + j →
    (op = .loadByte a ∧ n = 1 ∧ j < 4 ∧
        v = (w.extractLsb' (if s.params.hostEndian = .le then 8 * j else 24 - 8 * j) 8).setWidth 32 ∨
      op = .loadHalf a ∧ n = 2 ∧ j < 3 ∧
        v = (w.extractLsb' (if s.params.hostEndian = .le then 8 * j else 16 - 8 * j) 16).setWidth 32 ∨
      op = .mrd a ∧ n = 4 ∧ j = 0 ∧ v = w) →
    (s.accessOk n a.toNat = true → step (s.memWrite addr w) =
      .next ({ s.memWrite addr w with program := rest, received := s.received ++ [v] }.nextAnswer)) ∧
    (s.accessOk n a.toNat = false → step (s.memWrite addr w) = .fault .hostMemory)) ∧
  (∀ (s : State) (n : Nat) (a vw : Word) (vh : BitVec 16) (vb : Byte) (bytes : Nat → Byte)
    (op : HostOp) (rest : List HostOp),
    s.turn = .host → s.program = op :: rest →
    (op = .storeByte a vb ∧ n = 1 ∧ bytes = (fun _ => vb) ∨
      op = .storeHalf a vh ∧ n = 2 ∧
        bytes = (fun j => vh.extractLsb' (if s.params.hostEndian = .le then 8 * j else 8 - 8 * j) 8) ∨
      op = .mwr a vw ∧ n = 4 ∧
        bytes = (fun j => vw.extractLsb' (if s.params.hostEndian = .le then 8 * j else 24 - 8 * j) 8)) →
    (s.accessOk n a.toNat = true → ∃ t : State, step s = .next t.nextAnswer ∧
      t = { s with program := rest, buf := t.buf } ∧
      ∀ x, t.readByte x =
        if a.toNat ≤ x ∧ x < a.toNat + n then bytes (x - a.toNat) else s.readByte x) ∧
    (s.accessOk n a.toNat = false → step s = .fault .hostMemory)) ∧
  ∀ s t : State, step s = .next t → t.params.hostEndian = s.params.hostEndian

/-! ## BEGIN -/

/-- R111, and B1 of R110 and R112: BEGIN outside `UNINIT` finishes `E_STATE` and changes nothing else;
an owned engine gives `E_BIND`, a free one becomes owned in the same step. -/
def Obligations.BeginChecksStateAndOwner : Prop :=
  ∀ (s : State) (id : Nat) (b : Block),
    (s.atRow id b (.begin .b0) →
      (b.lifecycle ≠ .uninit → exec .begin s =
        .next (s.setBlock id { b with errCode := .state, result := false, seq := none })) ∧
      (b.lifecycle = .uninit → exec .begin s =
        .next (s.setBlock id { b with seq := some (.begin .b1) }))) ∧
    (s.atRow id b (.begin .b1) →
      (s.owner b.e ≠ none → exec .begin s =
        .next (s.setBlock id { b with errCode := .bind, result := false, seq := none })) ∧
      (s.owner b.e = none → ∃ t, exec .begin s = .next t ∧
        t.block? id = some { b with seq := some (.begin .b2) } ∧ t.owner b.e = some id ∧
        t.engine b.e = s.engine b.e ∧ t.trace = s.trace ++ [.own b.e (some id)]))

/-- R113: the clock pin is bound first, then the data pin; a failed binding undoes what was acquired
before it and finishes `E_BIND` with the lifecycle as it was. -/
def Obligations.BeginBindsPinsOrUndoes : Prop :=
  ∀ (s : State) (id : Nat) (b : Block),
    (s.atRow id b (.begin .b2) → ∃ t, exec .begin s = .next t ∧
      (s.answer.call = .ok → t.block? id = some { b with seq := some (.begin .b3) } ∧
        t.owner b.e = s.owner b.e ∧
        t.trace = s.trace ++ [.call (.pinMux b.clockPin (.clk b.e b.c)) .ok]) ∧
      (s.answer.call = .fail →
        t.block? id = some { b with errCode := .bind, result := false, seq := none } ∧
        t.owner b.e = none ∧
        t.trace = s.trace ++ [.call (.pinMux b.clockPin (.clk b.e b.c)) .fail, .own b.e none])) ∧
    (s.atRow id b (.begin .b3) → ∃ t, exec .begin s = .next t ∧
      t.block? id = some { b with seq := some (.begin
        (if s.answer.call = .ok then .b4 else .b3f)) } ∧ t.owner b.e = s.owner b.e ∧
      t.trace = s.trace ++ [.call (.pinMux b.dataPin (.data b.e b.m)) s.answer.call]) ∧
    (s.atRow id b (.begin .b3f) → ∃ t, exec .begin s = .next t ∧
      t.block? id = some { b with errCode := .bind, result := false, seq := none } ∧
      t.owner b.e = none ∧
      t.trace = s.trace ++ [.call (.pinRelease b.clockPin) s.answer.call, .own b.e none])

/-- R114, R49 and the fatal path of R136: BEGIN resets the whole engine; an ok `SyncWait` completes the
reset, a timeout leaves `INDETERMINATE` with `E_HWSYNC`. -/
def Obligations.BeginResetsEngine : Prop :=
  ∀ (s : State) (id : Nat) (b : Block),
    (s.atRow id b (.begin .b4) → ∃ t, exec .begin s = .next t ∧
      t.block? id = some { b with seq := some (.begin .b5) } ∧
      (t.engine b.e).ctrl = (s.engine b.e).ctrl ∧ (t.engine b.e).syncbusy.swrst = true ∧
      (t.engine b.e).swrstReads = true ∧ t.trace = s.trace ++ [.wrCtrl b.e .swrst true]) ∧
    (s.atRow id b (.begin .b5) → ∃ t, exec .begin s = .next t ∧
      t.owner b.e = s.owner b.e ∧ s.sameClocks t ∧
      t.trace = s.trace ++ [.sync b.e .swrst s.answer.sync] ∧
      (s.answer.sync = .ok → t.block? id = some { b with seq := some (.begin .b6) } ∧
        (∀ f, (t.engine b.e).ctrl.get f = false ∧ (t.engine b.e).syncbusy.get f = false ∧
          (t.engine b.e).pending.get f = none) ∧
        (t.engine b.e).rxrdy = ⟨false, false⟩) ∧
      (s.answer.sync = .timeout → t.block? id = some
        { b with lifecycle := .indeterminate, cfgValid := false, cfgG := 0, cfgS := 0, cfgF := 0,
                 errCode := .hwsync, result := false, seq := none }))

/-- R115 and B6 to B10 of R110, R116: BEGIN writes `SEREN[m] <- 0` and `CKEN[c] <- 0`, each with its
`SyncWait`, and commits `IDLE` with an invalid ClockConfig. No other `CTRL` field changes, whatever the
outcome (R33, R46). -/
def Obligations.BeginDisablesUnitsAndCommits : Prop :=
  ∀ (s : State) (id : Nat) (b : Block) (f : CtrlField) (wrRow syncRow next : BeginRow),
    (f = .seren b.m ∧ wrRow = .b6 ∧ syncRow = .b7 ∧ next = .b8 ∨
      f = .cken b.c ∧ wrRow = .b8 ∧ syncRow = .b9 ∧ next = .b10) →
    (s.atRow id b (.begin wrRow) → ∃ t, exec .begin s = .next t ∧
      t.block? id = some { b with seq := some (.begin syncRow) } ∧
      (t.engine b.e).ctrl = (s.engine b.e).ctrl ∧ (t.engine b.e).syncbusy.get f = true ∧
      (∀ g, g ≠ f → (t.engine b.e).syncbusy.get g = (s.engine b.e).syncbusy.get g) ∧
      (t.engine b.e).pending.get f = some false ∧ t.trace = s.trace ++ [.wrCtrl b.e f false]) ∧
    (s.atRow id b (.begin syncRow) → ∃ t, exec .begin s = .next t ∧
      t.trace = s.trace ++ [.sync b.e f s.answer.sync] ∧
      (∀ g, g ≠ f → (t.engine b.e).ctrl.get g = (s.engine b.e).ctrl.get g ∧
        (t.engine b.e).syncbusy.get g = (s.engine b.e).syncbusy.get g) ∧
      (s.answer.sync = .ok → t.block? id = some { b with seq := some (.begin next) } ∧
        (t.engine b.e).syncbusy.get f = false ∧
        ((s.engine b.e).pending.get f = some false → (t.engine b.e).ctrl.get f = false)) ∧
      (s.answer.sync = .timeout → t.block? id = some
        { b with lifecycle := .indeterminate, cfgValid := false, cfgG := 0, cfgS := 0, cfgF := 0,
                 errCode := .hwsync, result := false, seq := none })) ∧
    (s.atRow id b (.begin .b10) → exec .begin s = .next (s.setBlock id
      { b with lifecycle := .idle, cfgValid := false, cfgG := 0, cfgS := 0, cfgF := 0,
               errCode := .none, result := true, seq := none }))

/-- R116, R117: a BEGIN from `UNINIT` on a free engine whose every draw is `ok` makes exactly the nine
events and leaves `IDLE`, the engine owned, `CTRL` all 0, the ready flags 0 and the serializer
inactive. -/
def Obligations.BeginAllOkRun : Prop :=
  ∀ (s : State) (id : Nat) (b : Block),
    s.atRow id b (.begin .b0) → b.lifecycle = .uninit → s.owner b.e = none → s.okScript id 11 →
    ∃ t, Host.Core.run Sys2Proof.core 11 s = .next t ∧
      t.trace = s.trace ++ beginPattern id b ∧
      t.block? id = some
        { b with lifecycle := .idle, cfgValid := false, cfgG := 0, cfgS := 0, cfgF := 0,
                 errCode := .none, result := true, seq := none } ∧
      t.owner b.e = some id ∧ (t.engine b.e).ctrl = CtrlFields.all false ∧
      (t.engine b.e).syncbusy = CtrlFields.all false ∧
      (t.engine b.e).rxrdy = ⟨false, false⟩ ∧ t.rxActive b.e b.m = false

/-! ## END and GET_SER_INDEX -/

/-- R119, R121, and E0 of R118: END from `UNINIT` finishes `E_NONE` and does nothing else; from any
other state it starts with no error. At its end it releases the data pin, then the clock pin, whatever
the outcomes, then the engine; in that last step it invalidates ClockConfig, sets `UNINIT` and
finishes with its recorded error. -/
def Obligations.EndStartsAndReleases : Prop :=
  ∀ (s : State) (id : Nat) (b : Block),
    (s.atRow id b (.end_ .e0) →
      (b.lifecycle = .uninit → exec .end_ s =
        .next (s.setBlock id { b with errCode := .none, result := true, seq := none })) ∧
      (b.lifecycle ≠ .uninit → exec .end_ s = .next (s.setBlock id
        { b with work := { b.work with err := .none }, seq := some (.end_ .e1) }))) ∧
    (s.atRow id b (.end_ .e7) → ∃ t, exec .end_ s = .next t ∧
      t.block? id = some { b with seq := some (.end_ .e8) } ∧ s.sameClocks t ∧
      t.trace = s.trace ++ [.call (.pinRelease b.dataPin) s.answer.call]) ∧
    (s.atRow id b (.end_ .e8) → ∃ t, exec .end_ s = .next t ∧
      t.block? id = some { b with seq := some (.end_ .e9) } ∧ s.sameClocks t ∧
      t.trace = s.trace ++ [.call (.pinRelease b.clockPin) s.answer.call]) ∧
    (s.atRow id b (.end_ .e9) → ∃ t, exec .end_ s = .next t ∧
      t.block? id = some
        { b with lifecycle := .uninit, cfgValid := false, cfgG := 0, cfgS := 0, cfgF := 0,
                 errCode := b.work.err, result := b.work.err == .none, seq := none } ∧
      t.owner b.e = none ∧ t.engine b.e = s.engine b.e ∧ s.sameClocks t ∧
      t.trace = s.trace ++ [.own b.e none])

/-- R120: END writes 0 to the serializer, the clock unit and the engine enable, in that order, each
synchronised; a timeout is recorded as `E_HWSYNC` and END goes on. No other `CTRL` field changes, whatever
the outcome (R33, R46). -/
def Obligations.EndDisablesAndGoesOn : Prop :=
  ∀ (s : State) (id : Nat) (b : Block) (f : CtrlField) (wrRow syncRow next : EndRow),
    (f = .seren b.m ∧ wrRow = .e1 ∧ syncRow = .e2 ∧ next = .e3 ∨
      f = .cken b.c ∧ wrRow = .e3 ∧ syncRow = .e4 ∧ next = .e5 ∨
      f = .enable ∧ wrRow = .e5 ∧ syncRow = .e6 ∧ next = .e7) →
    (s.atRow id b (.end_ wrRow) → ∃ t, exec .end_ s = .next t ∧
      t.block? id = some { b with seq := some (.end_ syncRow) } ∧
      (t.engine b.e).ctrl = (s.engine b.e).ctrl ∧ (t.engine b.e).syncbusy.get f = true ∧
      (∀ g, g ≠ f → (t.engine b.e).syncbusy.get g = (s.engine b.e).syncbusy.get g) ∧
      (t.engine b.e).pending.get f = some false ∧ t.trace = s.trace ++ [.wrCtrl b.e f false]) ∧
    (s.atRow id b (.end_ syncRow) → ∃ t, exec .end_ s = .next t ∧
      t.trace = s.trace ++ [.sync b.e f s.answer.sync] ∧
      (∀ g, g ≠ f → (t.engine b.e).ctrl.get g = (s.engine b.e).ctrl.get g ∧
        (t.engine b.e).syncbusy.get g = (s.engine b.e).syncbusy.get g) ∧
      (s.answer.sync = .ok → t.block? id = some { b with seq := some (.end_ next) } ∧
        (t.engine b.e).syncbusy.get f = false ∧
        ((s.engine b.e).pending.get f = some false → (t.engine b.e).ctrl.get f = false)) ∧
      (s.answer.sync = .timeout → t.block? id = some
        { b with work := { b.work with err := .hwsync }, seq := some (.end_ next) }))

/-- R118, R120, R122: an END from a state other than `UNINIT`, whatever its draws, makes the nine events,
those of `SyncWait` and `Call` with their outcomes, reaches `UNINIT` with the engine released, and
finishes `E_HWSYNC` exactly if a `SyncWait` timed out. Of the serializer, the clock unit and the engine
each is off after it whose own `SyncWait` was ok. -/
def Obligations.EndRunWhateverTheOutcomes : Prop :=
  ∀ (s : State) (id : Nat) (b : Block) (a0 a1 a2 a3 a4 a5 a6 a7 a8 a9 : Answer)
    (rest : List Answer),
    s.atRow id b (.end_ .e0) → b.lifecycle ≠ .uninit →
    s.script = [a0, a1, a2, a3, a4, a5, a6, a7, a8, a9] ++ rest →
    (∀ a ∈ [a0, a1, a2, a3, a4, a5, a6, a7, a8], a.agent = .sequencer id) →
    ∃ t b', Host.Core.run Sys2Proof.core 10 s = .next t ∧ t.block? id = some b' ∧
      b'.lifecycle = .uninit ∧ b'.cfgValid = false ∧ b'.seq = none ∧ b'.chMode = b.chMode ∧
      b'.errCode = (if a2.sync = .timeout ∨ a4.sync = .timeout ∨ a6.sync = .timeout
        then .hwsync else .none) ∧
      t.owner b.e = none ∧ s.sameClocks t ∧
      (a2.sync = .ok → (t.engine b.e).ctrl.seren.get b.m = false) ∧
      (a4.sync = .ok → (t.engine b.e).ctrl.cken.get b.c = false) ∧
      (a6.sync = .ok → (t.engine b.e).ctrl.enable = false) ∧
      t.trace = s.trace ++
        [.wrCtrl b.e (.seren b.m) false, .sync b.e (.seren b.m) a2.sync,
          .wrCtrl b.e (.cken b.c) false, .sync b.e (.cken b.c) a4.sync,
          .wrCtrl b.e .enable false, .sync b.e .enable a6.sync,
          .call (.pinRelease b.dataPin) a7.call, .call (.pinRelease b.clockPin) a8.call,
          .own b.e none]

/-- R123: GET_SER_INDEX, in every lifecycle state, writes the zero-extended index to `RES_WORD` and
finishes `E_NONE`; it changes no other state. -/
def Obligations.GetSerIndexReturnsIndex : Prop :=
  ∀ (s : State) (id : Nat) (b : Block), s.atRow id b .getSerIndex →
    exec .getSerIndex s = .next (s.setBlock id
      { b with resWord := if b.m = .u0 then 0 else 1, errCode := .none, result := true,
               seq := none })

/-! ## The calculator -/

/-- R105: what every `Ok(g, s, f)` of the calculator satisfies, under every legal parameter set. -/
def Obligations.CalculatorOkProperties : Prop :=
  ∀ (p : Params) (rate g s f : Nat), p.legal = true → calculate p rate = .ok g s f →
    (1 ≤ g ∧ g ≤ p.gdivMax) ∧ (1 ≤ s ∧ s ≤ p.sdivMax) ∧ g * s * (rate * p.osr) = p.fRef ∧
    f = rate * p.osr ∧ f % rate = 0 ∧ (1 ≤ f ∧ f ≤ p.fSckMax) ∧
    ∀ g', g < g' → g' ≤ p.gdivMax → p.fRef / (rate * p.osr) % g' = 0 →
      ¬ p.fRef / (rate * p.osr) / g' ≤ p.sdivMax

/-- R96, R98, R99, R101, R102: the calculator succeeds exactly where the rate is positive, the target
clock is rated and divides the reference exactly, and a legal pair exists. -/
def Obligations.CalculatorSucceedsExactlyWhen : Prop :=
  ∀ (p : Params) (rate : Nat),
    (∃ g s f, calculate p rate = .ok g s f) ↔
      (rate ≠ 0 ∧ rate * p.osr ≤ p.fSckMax ∧ p.fRef % (rate * p.osr) = 0 ∧
        ∃ g, 1 ≤ g ∧ g ≤ p.gdivMax ∧ p.fRef / (rate * p.osr) % g = 0 ∧
          p.fRef / (rate * p.osr) / g ≤ p.sdivMax)

/-- R106: where the whole division fits the generic-clock stage, it falls on that stage alone. -/
def Obligations.CalculatorUsesGenericStage : Prop :=
  ∀ (p : Params) (rate : Nat), p.legal = true → rate ≠ 0 → rate * p.osr ≤ p.fSckMax →
    p.fRef % (rate * p.osr) = 0 → p.fRef / (rate * p.osr) ≤ p.gdivMax →
    calculate p rate = .ok (p.fRef / (rate * p.osr)) 1 (rate * p.osr)

/-! ## CONFIGURE -/

/-- R128: CONFIGURE goes on only from `IDLE` and `RUNNING`, taking the rate from `ARG_RATE`; in the
other states it finishes `E_STATE` and changes nothing. -/
def Obligations.ConfigureChecksState : Prop :=
  ∀ (s : State) (id : Nat) (b : Block) (stereo : Bool), s.atRow id b (.configure .c0) →
    ((b.lifecycle = .uninit ∨ b.lifecycle = .indeterminate) → exec (.configure stereo) s =
      .next (s.setBlock id { b with errCode := .state, result := false, seq := none })) ∧
    ((b.lifecycle = .idle ∨ b.lifecycle = .running) → exec (.configure stereo) s =
      .next (s.setBlock id
        { b with work := { b.work with rate := b.argRate }, seq := some (.configure .c1) }))

/-- R107, R129: the calculator runs before any engine access; its failure finishes `E_CONFIG` and leaves
every other piece of state as it was, but for the working register `r`. -/
def Obligations.ConfigureCalculatesFirst : Prop :=
  ∀ (s : State) (id : Nat) (b : Block) (stereo : Bool), s.atRow id b (.configure .c1) →
    (∀ why, calculate s.params b.work.rate.toNat = .fail why → exec (.configure stereo) s =
      .next (s.setBlock id { b with work := { b.work with r := .fail why }, errCode := .config,
                                    result := false, seq := none })) ∧
    (∀ g q f, calculate s.params b.work.rate.toNat = .ok g q f → exec (.configure stereo) s =
      .next (s.setBlock id { b with work := { b.work with r := .ok g q f },
                                    seq := some (.configure .c2) }))

/-- R130, R134, R136: every enable that CONFIGURE writes is synchronised: the write leaves the effective
value, the `SyncWait` makes it effective or takes the fatal path. The disable phase goes serializer,
clock unit, engine; the enable phase engine, clock unit, serializer. No other `CTRL` field changes, whatever
the outcome (R33, R46). -/
def Obligations.ConfigureSynchronisesEnables : Prop :=
  ∀ (s : State) (id : Nat) (b : Block) (stereo v : Bool) (f : CtrlField)
    (wrRow syncRow next : ConfigureRow),
    (f = .seren b.m ∧ v = false ∧ wrRow = .c2 ∧ syncRow = .c3 ∧ next = .c4 ∨
      f = .cken b.c ∧ v = false ∧ wrRow = .c4 ∧ syncRow = .c5 ∧ next = .c6 ∨
      f = .enable ∧ v = false ∧ wrRow = .c6 ∧ syncRow = .c7 ∧ next = .c8 ∨
      f = .enable ∧ v = true ∧ wrRow = .c13 ∧ syncRow = .c14 ∧ next = .c15 ∨
      f = .cken b.c ∧ v = true ∧ wrRow = .c15 ∧ syncRow = .c16 ∧ next = .c17 ∨
      f = .seren b.m ∧ v = true ∧ wrRow = .c17 ∧ syncRow = .c18 ∧ next = .c19) →
    (s.atRow id b (.configure wrRow) → ∃ t, exec (.configure stereo) s = .next t ∧
      t.block? id = some { b with seq := some (.configure syncRow) } ∧
      (t.engine b.e).ctrl = (s.engine b.e).ctrl ∧ (t.engine b.e).syncbusy.get f = true ∧
      (∀ g, g ≠ f → (t.engine b.e).syncbusy.get g = (s.engine b.e).syncbusy.get g) ∧
      (t.engine b.e).pending.get f = some v ∧ t.trace = s.trace ++ [.wrCtrl b.e f v]) ∧
    (s.atRow id b (.configure syncRow) → ∃ t, exec (.configure stereo) s = .next t ∧
      t.owner b.e = s.owner b.e ∧ t.trace = s.trace ++ [.sync b.e f s.answer.sync] ∧
      (∀ g, g ≠ f → (t.engine b.e).ctrl.get g = (s.engine b.e).ctrl.get g ∧
        (t.engine b.e).syncbusy.get g = (s.engine b.e).syncbusy.get g) ∧
      (s.answer.sync = .ok → t.block? id = some { b with seq := some (.configure next) } ∧
        (t.engine b.e).syncbusy.get f = false ∧
        ∀ w, (s.engine b.e).pending.get f = some w → (t.engine b.e).ctrl.get f = w) ∧
      (s.answer.sync = .timeout → t.block? id = some
        { b with lifecycle := .indeterminate, cfgValid := false, cfgG := 0, cfgS := 0, cfgF := 0,
                 errCode := .hwsync, result := false, seq := none }))

/-- R131, R178: CONFIGURE programs generator `k` to source `REF` with divisor `g`, enables it, and routes
it to the clock unit; a `fail`, drawn or forced by `k >= GCLK_COUNT`, takes the fatal path. -/
def Obligations.ConfigureProgramsGenerator : Prop :=
  ∀ (s : State) (id : Nat) (b : Block) (stereo : Bool) (g q fb : Nat) (op : CallOp)
    (row next : ConfigureRow),
    b.work.r = .ok g q fb →
    (op = .genConfigure b.k.toNat .ref g ∧ row = .c8 ∧ next = .c9 ∨
      op = .genEnable b.k.toNat ∧ row = .c9 ∧ next = .c10 ∨
      op = .genConnect b.e b.c b.k.toNat ∧ row = .c10 ∧ next = .c11) →
    s.atRow id b (.configure row) → ∃ t, exec (.configure stereo) s = .next t ∧
      (s.answer.call = .ok ∧ b.k.toNat < s.params.gclkCount →
        t.block? id = some { b with seq := some (.configure next) } ∧
        t.trace = s.trace ++ [.call op .ok] ∧
        (row = .c8 → t.gen b.k.toNat = { s.gen b.k.toNat with src := .ref, div := g }) ∧
        (row = .c9 → t.gen b.k.toNat = { s.gen b.k.toNat with genEn := true }) ∧
        (row = .c10 → t.route b.e b.c = some b.k.toNat)) ∧
      (s.answer.call = .fail ∨ s.params.gclkCount ≤ b.k.toNat →
        t.block? id = some
          { b with lifecycle := .indeterminate, cfgValid := false, cfgG := 0, cfgS := 0, cfgF := 0,
                   errCode := .hwsync, result := false, seq := none } ∧
        t.trace = s.trace ++ [.call op .fail])

/-- R132, R133 and the protected write of R170: on a disabled unit with no write pending, C11 writes the
divisor and C12 the whole frame format; else the write is `F_PROTECTED_WRITE`. -/
def Obligations.ConfigureWritesDivisorAndFormat : Prop :=
  ∀ (s : State) (id : Nat) (b : Block) (stereo : Bool) (g q fb : Nat), b.work.r = .ok g q fb →
    (s.atRow id b (.configure .c11) →
      ((s.engine b.e).clkProtected b.c = true →
        exec (.configure stereo) s = .fault .protectedWrite) ∧
      ((s.engine b.e).clkProtected b.c = false → ∃ t, exec (.configure stereo) s = .next t ∧
        t.block? id = some { b with seq := some (.configure .c12) } ∧
        t.engine b.e = { s.engine b.e with clk := (s.engine b.e).clk.set b.c q } ∧
        t.trace = s.trace ++ [.wrClk b.e b.c q])) ∧
    (s.atRow id b (.configure .c12) →
      ((s.engine b.e).fmtProtected b.m = true →
        exec (.configure stereo) s = .fault .protectedWrite) ∧
      ((s.engine b.e).fmtProtected b.m = false → ∃ t fmt, exec (.configure stereo) s = .next t ∧
        fmt = { mode := .pdmRx, dataSize := 32, slotSize := s.params.slotSize, fsSrc := .bitClk,
                bitOrder := s.params.bitOrder,
                chMode := if stereo = true then .stereo else .mono, clkSel := b.c } ∧
        t.block? id = some { b with seq := some (.configure .c13) } ∧
        t.engine b.e = { s.engine b.e with fmt := (s.engine b.e).fmt.set b.m fmt } ∧
        t.trace = s.trace ++ [.wrFmt b.e b.m fmt]))

/-- R24, R28, R135: the commit stores the triple, its flag, the channel mode and `RUNNING` in one step,
and finishes `E_NONE`. -/
def Obligations.ConfigureCommitsTogether : Prop :=
  ∀ (s : State) (id : Nat) (b : Block) (stereo : Bool) (g q f : Nat),
    s.atRow id b (.configure .c19) → b.work.r = .ok g q f →
    exec (.configure stereo) s = .next (s.setBlock id
      { b with cfgG := g, cfgS := q, cfgF := f, cfgValid := true,
               chMode := if stereo = true then .stereo else .mono, lifecycle := .running,
               errCode := .none, result := true, seq := none })

/-- R137, R139, R140: from `IDLE` or `RUNNING`, a CONFIGURE of an accepted rate whose every draw is `ok`
makes exactly the 17 events and leaves `RUNNING` with that rate's divisors in ClockConfig, in the
generator, in the clock unit and in the format, and the serializer active; the achieved clock is
`rate * OSR`. -/
def Obligations.ConfigureAllOkRun : Prop :=
  ∀ (s : State) (id : Nat) (b : Block) (g q f : Nat),
    s.params.legal = true →
    s.atRow id b (.configure .c0) → (b.lifecycle = .idle ∨ b.lifecycle = .running) →
    calculate s.params b.argRate.toNat = .ok g q f → b.k.toNat < s.params.gclkCount →
    (s.engine b.e).anyPending = false → s.okScript id 20 →
    ∃ t b', Host.Core.run Sys2Proof.core 20 s = .next t ∧
      t.trace = s.trace ++ configurePattern s.params b b.work.st g q ∧
      t.block? id = some b' ∧ b'.lifecycle = .running ∧ b'.seq = none ∧ b'.errCode = .none ∧
      b'.result = true ∧ b'.cfgValid = true ∧ b'.cfgG = g ∧ b'.cfgS = q ∧ b'.cfgF = f ∧
      b'.chMode = chModeOf b.work.st ∧ f = b.argRate.toNat * s.params.osr ∧
      g * q * f = s.params.fRef ∧ f ≤ s.params.fSckMax ∧
      (t.engine b.e).clk.get b.c = q ∧
      (t.engine b.e).fmt.get b.m = frameFormat s.params b.work.st b.c ∧
      t.gen b.k.toNat = ⟨.ref, g, true⟩ ∧ t.route b.e b.c = some b.k.toNat ∧
      t.rxActive b.e b.m = true

/-! ## READ -/

/-- R8, and RD0 of R146: with `CHECKED_READ`, READ outside `RUNNING` finishes `E_STATE`; without it, or
in `RUNNING`, it goes to the poll. -/
def Obligations.ReadChecksStateOnlyIfAsked : Prop :=
  ∀ (s : State) (id : Nat) (b : Block), s.atRow id b (.read .rd0) →
    (s.params.checkedRead = true ∧ b.lifecycle ≠ .running → exec .read s =
      .next (s.setBlock id { b with errCode := .state, result := false, seq := none })) ∧
    (s.params.checkedRead = false ∨ b.lifecycle = .running → exec .read s =
      .next (s.setBlock id { b with seq := some (.read .rd1) }))

/-- R147, R161: the poll holds while the flag reads 0, with no event; it faults where another block owns
the engine; else it goes on and records the read. -/
def Obligations.ReadPollsReadyFlag : Prop :=
  ∀ (s : State) (id : Nat) (b : Block), s.atRow id b (.read .rd1) →
    ((s.engine b.e).rxrdy.get b.m = false → exec .read s = .next s) ∧
    ((s.engine b.e).rxrdy.get b.m = true →
      (∀ o, s.owner b.e = some o → o ≠ id → exec .read s = .fault .sharedEngine) ∧
      (s.owner b.e = none ∨ s.owner b.e = some id → ∃ t, exec .read s = .next t ∧
        t.block? id = some { b with seq := some (.read .rd2) } ∧
        t.engine b.e = s.engine b.e ∧ t.trace = s.trace ++ [.rdReady b.e b.m true]))

/-- R63, R148: the data read returns what `DATA[m]` holds at that step, clears `RXRDY[m]` in the same
step, and finishes `E_NONE`. -/
def Obligations.ReadTakesWordAndClearsFlag : Prop :=
  ∀ (s : State) (id : Nat) (b : Block), s.atRow id b (.read .rd2) →
    ∃ t w, w = (s.engine b.e).data.get b.m ∧ exec .read s = .next t ∧
      t.block? id = some { b with resWord := w, work := { b.work with w := w }, errCode := .none,
                                  result := true, seq := none } ∧
      t.engine b.e = { s.engine b.e with rxrdy := (s.engine b.e).rxrdy.set b.m false } ∧
      t.trace = s.trace ++ [.rdData b.e b.m w]

/-! ## READ_BUF -/

/-- R150, R151: a null buffer or a count that is not positive, as a signed number, gives `E_ARG` before
the state check; then `CHECKED_READ` outside `RUNNING` gives `E_STATE`. -/
def Obligations.ReadBufChecksArgumentsFirst : Prop :=
  ∀ (s : State) (id : Nat) (b : Block),
    (s.atRow id b (.readBuf .q0) →
      (b.argBuf = 0 ∨ b.argCount.toInt ≤ 0 → exec .readBuf s = .next (s.setBlock id
        { b with work := { b.work with buf := b.argBuf, n := b.argCount.toInt }, errCode := .arg,
                 result := false, seq := none })) ∧
      (b.argBuf ≠ 0 ∧ 0 < b.argCount.toInt → exec .readBuf s = .next (s.setBlock id
        { b with work := { b.work with buf := b.argBuf, n := b.argCount.toInt },
                 seq := some (.readBuf .q1) }))) ∧
    (s.atRow id b (.readBuf .q1) →
      (s.params.checkedRead = true ∧ b.lifecycle ≠ .running → exec .readBuf s =
        .next (s.setBlock id { b with errCode := .state, result := false, seq := none })) ∧
      (s.params.checkedRead = false ∨ b.lifecycle = .running → exec .readBuf s =
        .next (s.setBlock id { b with seq := some (.readBuf .q2) })))

/-- R61, R152: a buffer address that is not a multiple of 4 raises `F_BUF_MISALIGNED` at Q2; else the
word index starts at 0. -/
def Obligations.ReadBufFaultsOnMisalignedBuffer : Prop :=
  ∀ (s : State) (id : Nat) (b : Block), s.atRow id b (.readBuf .q2) →
    (b.work.buf.toNat % 4 ≠ 0 → exec .readBuf s = .fault .bufMisaligned) ∧
    (b.work.buf.toNat % 4 = 0 → exec .readBuf s = .next (s.setBlock id
      { b with work := { b.work with i := 0 }, seq := some (.readBuf .q3) }))

/-- R153, R57, R58, R59: the rows of one word: the poll, the data read, the store at `buf + 4*i` in the
host's byte order, or no step for ever where it is not admitted, and the loop. -/
def Obligations.ReadBufWordRows : Prop :=
  ∀ (s : State) (id : Nat) (b : Block),
    (s.atRow id b (.readBuf .q3) →
      ((s.engine b.e).rxrdy.get b.m = false → exec .readBuf s = .next s) ∧
      ((s.engine b.e).rxrdy.get b.m = true →
        (∀ o, s.owner b.e = some o → o ≠ id → exec .readBuf s = .fault .sharedEngine) ∧
        (s.owner b.e = none ∨ s.owner b.e = some id → ∃ t, exec .readBuf s = .next t ∧
          t.block? id = some { b with seq := some (.readBuf .q4) } ∧
          t.engine b.e = s.engine b.e ∧ t.trace = s.trace ++ [.rdReady b.e b.m true]))) ∧
    (s.atRow id b (.readBuf .q4) → ∃ t w, w = (s.engine b.e).data.get b.m ∧
      exec .readBuf s = .next t ∧
      t.block? id = some { b with work := { b.work with w := w }, seq := some (.readBuf .q5) } ∧
      t.engine b.e = { s.engine b.e with rxrdy := (s.engine b.e).rxrdy.set b.m false } ∧
      t.trace = s.trace ++ [.rdData b.e b.m w]) ∧
    (s.atRow id b (.readBuf .q5) →
      (s.memOk (b.work.buf.toNat + 4 * b.work.i) = false → exec .readBuf s = .next s) ∧
      (s.memOk (b.work.buf.toNat + 4 * b.work.i) = true → ∃ t, exec .readBuf s = .next t ∧
        t.block? id = some { b with seq := some (.readBuf .q6) } ∧
        t.engine b.e = s.engine b.e ∧
        t.readWord (b.work.buf.toNat + 4 * b.work.i) = b.work.w ∧
        (∀ j, j < 4 → t.readByte (b.work.buf.toNat + 4 * b.work.i + j) =
          b.work.w.extractLsb' (if s.params.hostEndian = .le then 8 * j else 24 - 8 * j) 8) ∧
        t.trace = s.trace ++ [.bufWr (b.work.buf.toNat + 4 * b.work.i) b.work.w])) ∧
    (s.atRow id b (.readBuf .q6) →
      ((b.work.i : Int) + 1 < b.work.n → exec .readBuf s = .next (s.setBlock id
        { b with work := { b.work with i := b.work.i + 1 }, seq := some (.readBuf .q3) })) ∧
      (b.work.n ≤ (b.work.i : Int) + 1 → exec .readBuf s = .next (s.setBlock id
        { b with work := { b.work with i := b.work.i + 1 }, errCode := .none, result := true,
                 seq := none })))

/-- R153, R163: on an active serializer that the block owns, READ_BUF with one delivery before each
word finishes `E_NONE` and fills exactly its `n` entries with the delivered words, in order, at
increasing addresses; no other byte of memory changes. -/
def Obligations.ReadBufFillsBufferInOrder : Prop :=
  ∀ (s : State) (id : Nat) (b : Block) (ws : List Word) (rest : List Answer)
    (script : Word → List Answer),
    s.turn = .producer b.e b.m → s.block? id = some b → b.seq = some (.readBuf .q3) →
    s.rxActive b.e b.m = true → b.e < s.params.nEngines → s.owner b.e = some id →
    b.work.i = 0 → ws ≠ [] → b.work.n = ws.length →
    (∀ j, j < ws.length → s.memOk (b.work.buf.toNat + 4 * j) = true) →
    (∀ w, ∃ a0 a1 a2 a3 a4, script w = [a0, a1, a2, a3, a4] ∧ a0.word = w ∧
      a0.agent = .sequencer id ∧ a1.agent = .sequencer id ∧ a2.agent = .sequencer id ∧
      a3.agent = .sequencer id ∧ a4.agent = .producer b.e b.m) →
    s.script = ws.flatMap script ++ rest →
    ∃ t b', Host.Core.run Sys2Proof.core (5 * ws.length) s = .next t ∧ t.block? id = some b' ∧
      b'.seq = none ∧ b'.errCode = .none ∧ b'.result = true ∧ b'.resWord = b.resWord ∧
      (∀ j w, ws[j]? = some w → t.readWord (b.work.buf.toNat + 4 * j) = w) ∧
      ∀ a, a < b.work.buf.toNat ∨ b.work.buf.toNat + 4 * ws.length ≤ a →
        t.readByte a = s.readByte a

/-- R154: past Q2, READ_BUF never finishes with `RESULT = 0`. -/
def Obligations.ReadBufNeverFailsLate : Prop :=
  ∀ (s t : State) (id : Nat) (b b' : Block) (row : ReadBufRow),
    s.atRow id b (.readBuf row) → row ≠ .q0 → row ≠ .q1 →
    exec .readBuf s = .next t → t.block? id = some b' → b'.seq = none →
    b'.errCode = .none ∧ b'.result = true

/-! ## The serializer producer -/

/-- R155, R158: a producer delivers exactly when its serializer is active; the drawn word overwrites
`DATA[m]` and sets `RXRDY[m]` whether or not the word before was read. The condition `e < N_ENGINES`, and
that the producer of an engine that does not exist does nothing, are the model's reading of R17, R155 and
R179, DEDUCED: log entry 26. -/
def Obligations.ProducerDeliversWhileActive : Prop :=
  ∀ (s : State) (e : Nat) (m : UnitIx), s.turn = .producer e m →
    ∃ t, step s = .next t.nextAnswer ∧
      (e < s.params.nEngines ∧ s.rxActive e m = true →
        t.engine e = { s.engine e with data := (s.engine e).data.set m s.answer.word,
                                       rxrdy := (s.engine e).rxrdy.set m true } ∧
        (∀ j, j ≠ e → t.engine j = s.engine j) ∧ t.blocks = s.blocks ∧ t.owners = s.owners ∧
        s.sameMemory t ∧ s.sameClocks t ∧
        t.trace = s.trace ++ [.deliver e m s.answer.word]) ∧
      (s.params.nEngines ≤ e ∨ s.rxActive e m = false → t = s)

/-! ## Frames -/

/-- The frame of BEGIN, END and GET_SER_INDEX (R51, R110, R118, R123): only the block's lifecycle,
ClockConfig, status, position and END's working register `err` change in the block, and `RES_WORD`
for GET_SER_INDEX alone; engine registers, ownership and the trace only of its own engine, and for
GET_SER_INDEX not even those; no generator, no route, no byte of memory, no other block. In its own
engine END leaves `DATA`, `CLK`, `FMT`, `SWRST` and the other units alone and sets no ready flag, and so
does BEGIN outside its reset rows B4 and B5 (at B4 but for `SWRST`'s busy bit), which leaves `ENABLE` alone
as well. The rows that write no engine register and wait for none leave the whole engine as it was: the pin
calls B2, B3, B3F, E7 and E8 (R42, R178), and B0, B1, B10, E0 and E9. -/
def Obligations.LifecycleCommandsFrame : Prop :=
  ∀ (s t : State) (id : Nat) (b : Block) (i : Instr),
    s.turn = .sequencer id → s.block? id = some b → (i = .begin ∨ i = .end_ ∨ i = .getSerIndex) →
    exec i s = .next t →
    ∃ b', t.block? id = some b' ∧ b.sameInputs b' ∧ b'.chMode = b.chMode ∧
      b'.work = { b.work with err := b'.work.err } ∧
      (i ≠ .end_ → b'.work = b.work) ∧ (i ≠ .getSerIndex → b'.resWord = b.resWord) ∧
      (i = .getSerIndex → b'.lifecycle = b.lifecycle ∧ b'.cfgValid = b.cfgValid ∧
        b'.cfgG = b.cfgG ∧ b'.cfgS = b.cfgS ∧ b'.cfgF = b.cfgF ∧ t.engine b.e = s.engine b.e ∧
        t.owner b.e = s.owner b.e ∧ t.trace = s.trace) ∧
      (∀ pos ∈ [Position.begin .b0, .begin .b1, .begin .b2, .begin .b3, .begin .b3f, .begin .b10,
        .end_ .e0, .end_ .e7, .end_ .e8, .end_ .e9], b.seq = some pos → t.engine b.e = s.engine b.e) ∧
      (i = .end_ → (s.engine b.e).sameFormats (t.engine b.e) ∧
        (s.engine b.e).sameOtherUnits (t.engine b.e) b.c b.m) ∧
      (i = .begin → b.seq ≠ some (.begin .b5) → (s.engine b.e).sameFormats (t.engine b.e) ∧
        (t.engine b.e).ctrl.enable = (s.engine b.e).ctrl.enable ∧
        (t.engine b.e).syncbusy.enable = (s.engine b.e).syncbusy.enable ∧
        (b.seq = some (.begin .b4) → t.engine b.e =
          { s.engine b.e with
            syncbusy := { (s.engine b.e).syncbusy with swrst := true }
            pending := { (s.engine b.e).pending with swrst := some true } }) ∧
        (b.seq ≠ some (.begin .b4) → (s.engine b.e).sameOtherUnits (t.engine b.e) b.c b.m)) ∧
      s.sameElsewhere t id b.e ∧ s.sameMemory t ∧ s.sameClocks t

/-- The frame of CONFIGURE (R51, R145): it writes neither `RES_WORD` nor ownership, touches only its own
generator and its own clock unit's route, in its own engine only the units `c` and `m` and `ENABLE`, and
no byte of memory. It writes `CLK` at C11 only and `FMT` at C12 only (R142), the fatal paths too (R167). Of
its generator it changes nothing outside C8 and C9, and at C9, also on a `fail`, `GENEN` alone; its clock
unit's route it changes at C10 only (R178); and the call rows C8 to C10 leave the whole engine as it was, as
C0, C1 and C19 do. -/
def Obligations.ConfigureFrame : Prop :=
  ∀ (s t : State) (id : Nat) (b : Block) (stereo : Bool),
    s.turn = .sequencer id → s.block? id = some b → exec (.configure stereo) s = .next t →
    ∃ b', t.block? id = some b' ∧ b.sameInputs b' ∧ b'.resWord = b.resWord ∧
      b'.work = { b.work with r := b'.work.r, rate := b'.work.rate } ∧
      t.owner b.e = s.owner b.e ∧ (t.engine b.e).rxrdy.get .u0 ≤ (s.engine b.e).rxrdy.get .u0 ∧
      (t.engine b.e).rxrdy.get .u1 ≤ (s.engine b.e).rxrdy.get .u1 ∧
      (t.engine b.e).data = (s.engine b.e).data ∧
      (s.engine b.e).sameOtherUnits (t.engine b.e) b.c b.m ∧
      (b.seq ≠ some (.configure .c11) → (t.engine b.e).clk = (s.engine b.e).clk) ∧
      (b.seq ≠ some (.configure .c12) → (t.engine b.e).fmt = (s.engine b.e).fmt) ∧
      (∀ pos ∈ [Position.configure .c0, .configure .c1, .configure .c8, .configure .c9, .configure .c10,
        .configure .c19], b.seq = some pos → t.engine b.e = s.engine b.e) ∧
      (∀ k, k ≠ b.k.toNat → t.gen k = s.gen k) ∧
      (b.seq ≠ some (.configure .c8) → b.seq ≠ some (.configure .c9) →
        t.gen b.k.toNat = s.gen b.k.toNat) ∧
      (b.seq = some (.configure .c9) →
        t.gen b.k.toNat = { s.gen b.k.toNat with genEn := (t.gen b.k.toNat).genEn }) ∧
      (∀ c, c ≠ b.c → t.route b.e c = s.route b.e c) ∧
      (b.seq ≠ some (.configure .c10) → t.route b.e b.c = s.route b.e b.c) ∧
      s.sameElsewhere t id b.e ∧ s.sameMemory t

/-- The frame of READ (R37, R51, R63, R146): of the engine it changes `RXRDY[m]` alone, at RD2 only; it writes no ClockConfig,
no channel mode, no lifecycle, no ownership, no generator, no route and no byte of memory. -/
def Obligations.ReadFrame : Prop :=
  ∀ (s t : State) (id : Nat) (b : Block),
    s.turn = .sequencer id → s.block? id = some b → exec .read s = .next t →
    ∃ b', t.block? id = some b' ∧ b.sameInputs b' ∧ b'.lifecycle = b.lifecycle ∧
      b'.chMode = b.chMode ∧ b'.cfgValid = b.cfgValid ∧ b'.cfgG = b.cfgG ∧ b'.cfgS = b.cfgS ∧
      b'.cfgF = b.cfgF ∧ b'.work = { b.work with w := b'.work.w } ∧
      (b.seq ≠ some (.read .rd2) → t.engine b.e = s.engine b.e) ∧
      t.engine b.e = { s.engine b.e with rxrdy := (t.engine b.e).rxrdy } ∧
      (∀ m, m ≠ b.m → (t.engine b.e).rxrdy.get m = (s.engine b.e).rxrdy.get m) ∧
      t.owner b.e = s.owner b.e ∧ s.sameElsewhere t id b.e ∧ s.sameMemory t ∧ s.sameClocks t

/-- The frame of READ_BUF (R37, R51, R63, R149, R153): as READ's, with Q4 for RD2, but it leaves `RES_WORD`
alone, and at Q5 it stores the four bytes at its store address; every other byte of memory reads as before. -/
def Obligations.ReadBufFrame : Prop :=
  ∀ (s t : State) (id : Nat) (b : Block),
    s.turn = .sequencer id → s.block? id = some b → exec .readBuf s = .next t →
    ∃ b', t.block? id = some b' ∧ b.sameInputs b' ∧ b'.resWord = b.resWord ∧
      b'.lifecycle = b.lifecycle ∧ b'.chMode = b.chMode ∧ b'.cfgValid = b.cfgValid ∧
      b'.cfgG = b.cfgG ∧ b'.cfgS = b.cfgS ∧ b'.cfgF = b.cfgF ∧
      (b.seq ≠ some (.readBuf .q4) → t.engine b.e = s.engine b.e) ∧
      t.engine b.e = { s.engine b.e with rxrdy := (t.engine b.e).rxrdy } ∧
      (∀ m, m ≠ b.m → (t.engine b.e).rxrdy.get m = (s.engine b.e).rxrdy.get m) ∧
      t.owner b.e = s.owner b.e ∧ s.sameElsewhere t id b.e ∧ s.sameClocks t ∧
      (b.seq ≠ some (.readBuf .q5) → s.sameMemory t) ∧
      (b.seq = some (.readBuf .q5) → ∀ a, a < b.storeAddr ∨ b.storeAddr + 4 ≤ a →
        t.readByte a = s.readByte a)

/-! ## Reset -/

/-- R20, R47, R48, R109: the first block after construction and the platform at power-on, where the spec
gives the values; and CONSTRUCT in any state: a block of a new identifier with the construction values, its
generator index the argument and its engine and units those of `UNIT_MAP` (R7), and nothing else of the
machine changed. That reset is after one CONSTRUCT, and that CONSTRUCT is an item of the host's program, is
the model's choice (log entries 5 and 21). -/
def Obligations.ResetValues : Prop :=
  (∃ b, State.reset.block? 0 = some b ∧ b.lifecycle = .uninit ∧ b.cfgValid = false ∧ b.cfgG = 0 ∧
    b.cfgS = 0 ∧ b.cfgF = 0 ∧ b.chMode = .mono ∧ b.seq = none ∧ b.cmd = 0 ∧ b.argRate = 0 ∧
    b.argCount = 0 ∧ b.argBuf = 0 ∧ b.resWord = 0 ∧ b.status = 0 ∧ b.cfgGdivReg = 0 ∧
    b.cfgSdivReg = 0 ∧ b.cfgFbckReg = 0 ∧ b.k = 3) ∧
  (∀ e, State.reset.owner e = none ∧ (State.reset.engine e).ctrl = CtrlFields.all false ∧
    (State.reset.engine e).syncbusy = CtrlFields.all false ∧
    (State.reset.engine e).rxrdy = ⟨false, false⟩) ∧
  (State.reset.trace = [] ∧ ∀ e m, State.reset.rxActive e m = false) ∧
  ∀ (s : State) (cp dp : Nat) (k : BitVec 8) (rest : List HostOp),
    s.turn = .host → s.program = .construct cp dp k :: rest →
    ∃ (t : State) (b : Block), step s = .next t.nextAnswer ∧ t.block? s.nextId = some b ∧ t.nextId = s.nextId + 1 ∧
      b.clockPin = cp ∧ b.dataPin = dp ∧ b.k = k ∧
      (⟨b.e, b.c, b.m⟩ : UnitSel) = s.params.unitMap cp dp ∧
      (s.params.legal = true → b.e < s.params.nEngines) ∧
      b.lifecycle = .uninit ∧ b.cfgValid = false ∧ b.cfgG = 0 ∧ b.cfgS = 0 ∧ b.cfgF = 0 ∧
      b.chMode = .mono ∧ b.seq = none ∧ b.cmd = 0 ∧ b.argRate = 0 ∧ b.argCount = 0 ∧ b.argBuf = 0 ∧
      b.resWord = 0 ∧ b.status = 0 ∧ b.cfgGdivReg = 0 ∧ b.cfgSdivReg = 0 ∧ b.cfgFbckReg = 0 ∧
      t = { s with program := rest, blocks := t.blocks, nextId := t.nextId } ∧
      ∀ j, j ≠ s.nextId → t.block? j = s.block? j

/-- The invariants hold after reset. -/
def Obligations.ResetMeetsInvariants : Prop :=
  State.reset.buf.wf = true ∧ State.reset.params.legal = true ∧ State.reset.OwnershipInv ∧
    State.reset.SyncInv ∧ State.reset.DisableInv ∧ State.reset.IdleInv ∧ State.reset.ClockInv

/-! ## Invariants that every step keeps -/

/-- Host memory keeps its canonical form. -/
def Obligations.MemoryStaysCanonical : Prop :=
  ∀ s t : State, s.buf.wf = true → step s = .next t → t.buf.wf = true

/-- The ownership invariant is kept by the steps of every agent and every block, and under it at most one
block is out of `UNINIT` on an engine. The invariant is R124's equivalence except in BEGIN's rows past the
test-and-set, where the block owns its engine and is still `UNINIT`: that exception is the model's reading
of R110 to R116 and R124, DEDUCED, log entry 30. -/
def Obligations.OwnershipKept : Prop :=
  (∀ s t : State, s.OwnershipInv → step s = .next t → t.OwnershipInv) ∧
  ∀ (s : State) (i j : Nat) (b c : Block), s.OwnershipInv → s.block? i = some b →
    s.block? j = some c → b.e = c.e → b.lifecycle ≠ .uninit → c.lifecycle ≠ .uninit → i = j

/-- R45, R66: the synchronisation invariant: no two synchronised writes are ever pending together in one
engine. Blocks on two engines may each have one pending. -/
def Obligations.SynchronisationKept : Prop :=
  ∀ s t : State, s.OwnershipInv → s.SyncInv → step s = .next t → t.SyncInv

/-- R142, R143: the disable phase's result stands until the enable phase undoes it. -/
def Obligations.DisablePhaseKept : Prop :=
  ∀ s t : State, s.OwnershipInv → s.SyncInv → s.DisableInv → step s = .next t → t.DisableInv

/-- R49, R116, R160: `CTRL`, `SYNCBUSY` and `RXRDY` of an `IDLE` block's engine stay as BEGIN's reset left
them, all 0. -/
def Obligations.IdleEngineStaysClean : Prop :=
  ∀ s t : State, s.OwnershipInv → s.SyncInv → s.IdleInv → step s = .next t → t.IdleInv

/-- R23: the ClockConfig invariant. -/
def Obligations.ClockConfigKept : Prop :=
  ∀ s t : State, s.ClockInv → step s = .next t → t.ClockInv

/-! ## What the invariants give -/

/-- R142, R161: `F_PROTECTED_WRITE` never arises, and with `CHECKED_READ` no `F_SHARED_ENGINE`
either. -/
def Obligations.FaultsThatNeverArise : Prop :=
  ∀ s : State, s.OwnershipInv →
    (s.SyncInv → s.DisableInv → step s ≠ .fault .protectedWrite) ∧
    (s.params.checkedRead = true → step s ≠ .fault .sharedEngine)

/-- R143: from the ok of C3 until the ok of C18 the producer of the block's serializer delivers
nothing. -/
def Obligations.ReprogrammingSilencesProducer : Prop :=
  ∀ (s : State) (id : Nat) (b : Block) (row : ConfigureRow), s.DisableInv →
    s.turn = .producer b.e b.m → s.block? id = some b → b.seq = some (.configure row) →
    4 ≤ row.index → row.index ≤ 18 → step s = .next s.nextAnswer

/-- R160: a READ or READ_BUF of an `IDLE` block never gets past its poll, whoever steps. -/
def Obligations.IdleReadHangs : Prop :=
  ∀ (s t : State) (id : Nat) (b : Block), s.OwnershipInv → s.SyncInv → s.IdleInv →
    s.block? id = some b → b.lifecycle = .idle →
    (b.seq = some (.read .rd1) ∨ b.seq = some (.readBuf .q3)) →
    s.enabled (.sequencer id) = false ∧ s.enabled (.producer b.e b.m) = false ∧
      (step s = .next t → t.block? id = some b)

/-! ## Rules about the whole machine -/

/-- R22: no step changes a block's pins, generator index, engine, clock unit or serializer, and no block
disappears. The rest is the model's choice: that no step changes the parameters is log entry 4 (DESIGN
CHOICE), and that a block's PORT base is fixed rests on R181 and log entry 5 (DESIGN CHOICE). -/
def Obligations.BindingNeverChanges : Prop :=
  ∀ s t : State, step s = .next t → (∀ id, s.nextId ≤ id → s.block? id = none) →
    t.params = s.params ∧ ∀ id b, s.block? id = some b → ∃ b', t.block? id = some b' ∧
      b'.clockPin = b.clockPin ∧ b'.dataPin = b.dataPin ∧ b'.k = b.k ∧ b'.e = b.e ∧ b'.c = b.c ∧
      b'.m = b.m ∧ b'.portBase = b.portBase

/-- R168: no command clears `INDETERMINATE` other than END. -/
def Obligations.OnlyEndLeavesIndeterminate : Prop :=
  ∀ (s t : State) (id : Nat) (b b' : Block), step s = .next t → s.OwnershipInv →
    s.block? id = some b → t.block? id = some b' → b.lifecycle = .indeterminate →
    b'.lifecycle ≠ .indeterminate →
    s.turn = .sequencer id ∧ b.seq = some (.end_ .e9) ∧ b'.lifecycle = .uninit

/-- R41: only BEGIN and END change the owner of an engine, and only of the stepping block's own. -/
def Obligations.OnlyBeginAndEndChangeOwner : Prop :=
  ∀ (s t : State) (e : Nat), step s = .next t → t.owner e ≠ s.owner e →
    ∃ id b, s.turn = .sequencer id ∧ s.block? id = some b ∧ b.e = e ∧
      ((∃ row, b.seq = some (.begin row)) ∨ b.seq = some (.end_ .e9))

/-- R177: nothing gives the host direct access to engine registers, `GEN`, `ROUTE` or ownership. The
trace stays too; that the host's stores to BUF make no event in it is the model's choice: log entry 17
(DESIGN CHOICE), and log entry 33 for the narrow ones. -/
def Obligations.HostNeverReachesEngine : Prop :=
  ∀ s t : State, s.turn = .host → step s = .next t →
    (∀ e, t.engine e = s.engine e ∧ t.owner e = s.owner e) ∧ s.sameClocks t ∧ t.trace = s.trace

/-- R32, R80: `RESULT` and `ERRCODE` are written only together, by a sequencer step that ends its
command, with `RESULT` the truth of `ERRCODE = E_NONE`. -/
def Obligations.StatusWrittenOnlyByFinish : Prop :=
  ∀ (s t : State) (id : Nat) (b b' : Block), step s = .next t → s.block? id = some b →
    t.block? id = some b' → (b'.result ≠ b.result ∨ b'.errCode ≠ b.errCode) →
    (∀ j, s.nextId ≤ j → s.block? j = none) →
    s.turn = .sequencer id ∧ b.seq ≠ none ∧ b'.seq = none ∧
      (b'.result = true ↔ b'.errCode = .none)

/-- R37, R46: only a delivery sets a ready flag, but for an engine reset that timed out. Under the
synchronisation invariant only these clear one: the data read of a block on that serializer (RD2, Q4), an
engine reset (B5), whatever its outcome, and an ok `SyncWait` of a pending `SEREN[m] <- 0` (B7, E2, C3). -/
def Obligations.ReadyFlagChangesOnlyByNamedEvents : Prop :=
  (∀ (s t : State) (e : Nat) (m : UnitIx), step s = .next t →
    (s.engine e).rxrdy.get m = false → (t.engine e).rxrdy.get m = true →
    (s.turn = .producer e m ∧ s.rxActive e m = true) ∨
    ∃ id b, s.turn = .sequencer id ∧ s.block? id = some b ∧ b.e = e ∧
      b.seq = some (.begin .b5) ∧ s.answer.sync = .timeout) ∧
  ∀ (s t : State) (e : Nat) (m : UnitIx), s.SyncInv → step s = .next t →
    (s.engine e).rxrdy.get m = true → (t.engine e).rxrdy.get m = false →
    ∃ id b, s.turn = .sequencer id ∧ s.block? id = some b ∧ b.e = e ∧
      (b.m = m ∧ (b.seq = some (.read .rd2) ∨ b.seq = some (.readBuf .q4)) ∨
        b.seq = some (.begin .b5) ∨
        b.m = m ∧ (b.seq = some (.begin .b7) ∨ b.seq = some (.end_ .e2) ∨
            b.seq = some (.configure .c3)) ∧
          s.answer.sync = .ok ∧ (s.engine e).pending.seren.get m = some false)

/-- R125: BEGIN, END, BEGIN with every draw `ok` makes the BEGIN pattern twice, with the END pattern
between, and ends owned and `IDLE` with `CTRL` all 0, as after the first BEGIN. -/
def Obligations.ReacquireCycle : Prop :=
  ∀ (s : State) (id : Nat) (b : Block),
    s.block? id = some b → b.lifecycle = .uninit → s.owner b.e = none →
    s.turn = .sequencer id → s.okScript id 32 →
    ∃ t1 t2 t3 b1 b2 b3,
      Host.Core.run Sys2Proof.core 11 (s.loadCommand (encode .begin)) = .next t1 ∧
      Host.Core.run Sys2Proof.core 10 (t1.loadCommand (encode .end_)) = .next t2 ∧
      Host.Core.run Sys2Proof.core 11 (t2.loadCommand (encode .begin)) = .next t3 ∧
      t3.trace = s.trace ++ beginPattern id b ++ endPattern b ++ beginPattern id b ∧
      t1.block? id = some b1 ∧ t2.block? id = some b2 ∧ t3.block? id = some b3 ∧
      b1.lifecycle = .idle ∧ b2.lifecycle = .uninit ∧ b3.lifecycle = .idle ∧
      b3.errCode = .none ∧ b3.result = true ∧
      t1.owner b.e = some id ∧ t2.owner b.e = none ∧ t3.owner b.e = some id ∧
      (t2.engine b.e).ctrl = CtrlFields.all false ∧
      (t3.engine b.e).ctrl = CtrlFields.all false ∧
      (t3.engine b.e).ctrl = (t1.engine b.e).ctrl
end

