-- ==== Sys2Proof/Laws/Calc.lean ====
section
/-! SUPPORT. The search for the largest legal divisor (R101, R108). -/

namespace Sys2Proof.Machine

/-- What the search finds is legal, within the bound, and no larger one is legal. -/
theorem largestLegal_some {p : Params} {total bound g : Nat}
    (h : largestLegal p total bound = some g) :
    g ≤ bound ∧ legalPair p total g = true ∧
      ∀ g', g < g' → g' ≤ bound → legalPair p total g' = false := by
  induction bound with
  | zero => cases h
  | succ n ih =>
    unfold largestLegal at h
    split at h
    · next hl =>
      cases h
      exact ⟨Nat.le_refl _, hl, fun g' h1 h2 => by omega⟩
    · next hl =>
      obtain ⟨h1, h2, h3⟩ := ih h
      refine ⟨by omega, h2, fun g' ha hb => ?_⟩
      by_cases hc : g' = n + 1
      · subst hc; simpa using hl
      · exact h3 g' ha (by omega)

/-- The search fails only where nothing within the bound is legal. -/
theorem largestLegal_none {p : Params} {total bound : Nat}
    (h : largestLegal p total bound = none) :
    ∀ g, g ≤ bound → legalPair p total g = false := by
  induction bound with
  | zero => intro g hg; simp [legalPair, Nat.le_zero.mp hg]
  | succ n ih =>
    unfold largestLegal at h
    split at h
    · cases h
    · next hl =>
      intro g hg
      by_cases hc : g = n + 1
      · subst hc; simpa using hl
      · exact ih h g (by omega)

theorem legalPair_iff (p : Params) (total g : Nat) :
    legalPair p total g = true ↔
      1 ≤ g ∧ g ≤ p.gdivMax ∧ total % g = 0 ∧ total / g ≤ p.sdivMax := by
  simp [legalPair]

/-- What an `Ok` of the calculator says: every check passed, and the pair is the search's. -/
theorem calculate_ok {p : Params} {rate g s f : Nat} (h : calculate p rate = .ok g s f) :
    rate ≠ 0 ∧ targetClock p rate ≤ p.fSckMax ∧ p.fRef % targetClock p rate = 0 ∧
      largestLegal p (p.fRef / targetClock p rate) p.gdivMax = some g ∧
      s = p.fRef / targetClock p rate / g ∧ f = p.fRef / (g * s) := by
  unfold calculate at h
  split at h
  · cases h
  next h0 =>
  split at h
  · cases h
  next h1 =>
  split at h
  · cases h
  next h2 =>
  split at h
  · cases h
  next g' hg =>
  cases h
  exact ⟨h0, by omega, by simpa using h2, hg, rfl, rfl⟩

end Sys2Proof.Machine
end

