-- ==== Sys2Proof/Laws/Config.lean ====
section
/-! SUPPORT. The parameters of the machine are legal, and every legal set is one the free raw
parameters can stand for. -/

namespace Sys2Proof

open Sys2Proof.Machine

theorem Params.legalise_legal (p : Params) : p.legalise.legal = true := by
  have h : ∀ x : Nat, x % (p.nEngines + 1) ≤ p.nEngines := fun x =>
    Nat.le_of_lt_succ (Nat.mod_lt x (Nat.succ_pos _))
  simp [Params.legal, Params.legalise, h]

theorem Config.params_legal : Config.params.legal = true := Params.legalise_legal _

/-- Every legal parameter set arises from a raw one. -/
theorem Params.legalise_onto (p : Params) (h : p.legal = true) : ∃ raw : Params, raw.legalise = p := by
  simp only [Params.legal, Bool.and_eq_true, decide_eq_true_eq, List.all_eq_true] at h
  obtain ⟨⟨⟨⟨⟨⟨⟨⟨⟨h1, h2⟩, h3⟩, h4⟩, h5⟩, h6⟩, h7⟩, h8⟩, h9⟩, h10⟩ := h
  refine ⟨{ p with
    fRef := p.fRef - 1, osr := p.osr - 1, gdivMax := p.gdivMax - 1, sdivMax := p.sdivMax - 1,
    fSckMax := p.fSckMax - 1, nEngines := p.nEngines - 1, gclkCount := p.gclkCount - 1,
    syncPollLimit := p.syncPollLimit - 1 }, ?_⟩
  have hrows : p.unitRows.map
      (fun r => { r with sel := { r.sel with engineId := r.sel.engineId % p.nEngines } })
        = p.unitRows := by
    conv => rhs; rw [← List.map_id p.unitRows]
    exact List.map_congr_left fun r hr => by simp [Nat.mod_eq_of_lt (h9 r hr)]
  obtain ⟨a1, a2, a3, a4, a5, a6, a7, a8, a9, a10, a11, a12, a13, a14, ⟨d1, d2, d3⟩⟩ := p
  simp_all [Params.legalise, Nat.sub_add_cancel, Nat.mod_eq_of_lt]

/-- A legal parameter set maps every pin pair to an engine that exists (R7). -/
theorem Params.unitMap_lt (p : Params) (h : p.legal = true) (cp dp : Nat) :
    (p.unitMap cp dp).engineId < p.nEngines := by
  simp only [Params.legal, Bool.and_eq_true, decide_eq_true_eq, List.all_eq_true] at h
  unfold Params.unitMap
  split
  · next r hr => exact h.1.2 r (List.mem_of_find?_eq_some hr)
  · exact h.2

end Sys2Proof
end

