-- ==== Sys2Proof/Laws/Table.lean ====
section
/-! SUPPORT. The laws of sparse tables, and of the two small register shapes. -/

namespace Sys2Proof.Machine

@[simp] theorem Table.at?_put_self {α : Type} (t : List (Nat × α)) (i : Nat) (a : α) :
    Table.at? (Table.put t i a) i = some a := by
  induction t with
  | nil => simp [Table.put, Table.at?]
  | cons x t ih =>
    obtain ⟨k, v⟩ := x
    unfold Table.put
    split
    · simp [Table.at?]
    · split
      · simp [Table.at?]
      · next h => simp [Table.at?, Ne.symm h, ih]

theorem Table.at?_put_ne {α : Type} (t : List (Nat × α)) {i j : Nat} (a : α) (h : j ≠ i) :
    Table.at? (Table.put t i a) j = Table.at? t j := by
  induction t with
  | nil => simp [Table.put, Table.at?, h.symm]
  | cons x t ih =>
    obtain ⟨k, v⟩ := x
    unfold Table.put
    split
    · simp [Table.at?, h.symm]
    · split
      · next hk => subst hk; simp [Table.at?, h.symm]
      · simp only [Table.at?, ih]

/-- Reading a table after one write. -/
theorem Table.at?_put {α : Type} (t : List (Nat × α)) (i j : Nat) (a : α) :
    Table.at? (Table.put t i a) j = if j = i then some a else Table.at? t j := by
  by_cases h : j = i
  · simp [h]
  · simp [h, Table.at?_put_ne]

theorem Table.rising_put {α : Type} {t : List (Nat × α)} {n i : Nat} (a : α) (hn : n ≤ i)
    (h : Table.rising n t = true) : Table.rising n (Table.put t i a) = true := by
  induction t generalizing n with
  | nil => simpa [Table.put, Table.rising] using hn
  | cons x t ih =>
    obtain ⟨k, v⟩ := x
    simp only [Table.rising, Bool.and_eq_true, decide_eq_true_eq] at h
    unfold Table.put
    split
    · next hlt => simp [Table.rising, hn, h.2]; omega
    · split
      · next hk => subst hk; simpa [Table.rising] using h
      · simp only [Table.rising, Bool.and_eq_true, decide_eq_true_eq]
        exact ⟨h.1, ih (by omega) h.2⟩

/-- A write keeps the canonical form. -/
theorem Table.wf_put {α : Type} {t : List (Nat × α)} (i : Nat) (a : α) (h : Table.wf t = true) :
    Table.wf (Table.put t i a) = true :=
  Table.rising_put a (Nat.zero_le i) h

/-- Whatever holds of every entry and of the new one holds of every entry after a write. -/
theorem Table.all_put {α : Type} {t : List (Nat × α)} {i : Nat} {a : α} {p : Nat × α → Bool}
    (ht : t.all p = true) (hi : p (i, a) = true) : (Table.put t i a).all p = true := by
  induction t with
  | nil => simp [Table.put, hi]
  | cons x t ih =>
    obtain ⟨k, v⟩ := x
    simp only [List.all_cons, Bool.and_eq_true] at ht
    unfold Table.put
    split
    · simp [hi, ht.1, ht.2]
    · split
      · simp [hi, ht.2]
      · simp [ht.1, ih ht.2]

@[simp] theorem Pair.get_set_self {α : Type} (p : Pair α) (x : UnitIx) (a : α) :
    (p.set x a).get x = a := by cases x <;> rfl

theorem Pair.get_set {α : Type} (p : Pair α) (x y : UnitIx) (a : α) :
    (p.set x a).get y = if y = x then a else p.get y := by cases x <;> cases y <;> rfl

@[simp] theorem CtrlFields.get_set_self {α : Type} (r : CtrlFields α) (f : CtrlField) (a : α) :
    (r.set f a).get f = a := by
  cases f <;> simp [CtrlFields.set, CtrlFields.get]

theorem CtrlFields.get_set {α : Type} (r : CtrlFields α) (f g : CtrlField) (a : α) :
    (r.set f a).get g = if g = f then a else r.get g := by
  cases f <;> cases g <;> simp [CtrlFields.set, CtrlFields.get, Pair.get_set]

@[simp] theorem CtrlFields.get_all {α : Type} (a : α) (f : CtrlField) :
    (CtrlFields.all a).get f = a := by
  cases f with
  | swrst => rfl
  | enable => rfl
  | cken c => cases c <;> rfl
  | seren m => cases m <;> rfl

/-- Setting a field to what it holds changes nothing. -/
@[simp] theorem CtrlFields.set_get {α : Type} (r : CtrlFields α) (f : CtrlField) :
    r.set f (r.get f) = r := by
  cases f with
  | swrst => rfl
  | enable => rfl
  | cken c => cases c <;> rfl
  | seren m => cases m <;> rfl

/-- Fields are equal when each field is. -/
theorem CtrlFields.ext_get {α : Type} {r q : CtrlFields α} (h : ∀ f, r.get f = q.get f) : r = q := by
  obtain ⟨a, b, ⟨c0, c1⟩, ⟨m0, m1⟩⟩ := r
  obtain ⟨a', b', ⟨c0', c1'⟩, ⟨m0', m1'⟩⟩ := q
  have h1 := h .swrst
  have h2 := h .enable
  have h3 := h (.cken .u0)
  have h4 := h (.cken .u1)
  have h5 := h (.seren .u0)
  have h6 := h (.seren .u1)
  simp only [CtrlFields.get, Pair.get] at h1 h2 h3 h4 h5 h6
  subst h1 h2 h3 h4 h5 h6
  rfl

/-- A write is pending exactly when some field's is. -/
theorem CtrlFields.any_isSome (r : CtrlFields (Option Bool)) :
    (r.swrst.isSome || r.enable.isSome || r.cken.u0.isSome || r.cken.u1.isSome
      || r.seren.u0.isSome || r.seren.u1.isSome) = true ↔ ∃ f, (r.get f).isSome = true := by
  constructor
  · intro h
    simp only [Bool.or_eq_true] at h
    rcases h with ((((h | h) | h) | h) | h) | h
    · exact ⟨.swrst, h⟩
    · exact ⟨.enable, h⟩
    · exact ⟨.cken .u0, h⟩
    · exact ⟨.cken .u1, h⟩
    · exact ⟨.seren .u0, h⟩
    · exact ⟨.seren .u1, h⟩
  · rintro ⟨f, h⟩
    cases f with
    | swrst => simp_all [CtrlFields.get]
    | enable => simp_all [CtrlFields.get]
    | cken c => cases c <;> simp_all [CtrlFields.get, Pair.get]
    | seren m => cases m <;> simp_all [CtrlFields.get, Pair.get]

end Sys2Proof.Machine
end

