-- ==== Sys2Proof/Laws/State.lean ====
section
/-! SUPPORT. One lemma per field per update of the state, and what the named reads see after an
update, so that no proof unfolds a record update. -/

namespace Sys2Proof.Machine

variable (s : State)

/-! ## After `setBlock` -/

@[simp] theorem State.setBlock_params (id : Nat) (b : Block) :
    (s.setBlock id b).params = s.params := rfl
@[simp] theorem State.setBlock_blocks (id : Nat) (b : Block) :
    (s.setBlock id b).blocks = Table.put s.blocks id b := rfl
@[simp] theorem State.setBlock_nextId (id : Nat) (b : Block) :
    (s.setBlock id b).nextId = s.nextId := rfl
@[simp] theorem State.setBlock_engines (id : Nat) (b : Block) :
    (s.setBlock id b).engines = s.engines := rfl
@[simp] theorem State.setBlock_gens (id : Nat) (b : Block) :
    (s.setBlock id b).gens = s.gens := rfl
@[simp] theorem State.setBlock_routes (id : Nat) (b : Block) :
    (s.setBlock id b).routes = s.routes := rfl
@[simp] theorem State.setBlock_owners (id : Nat) (b : Block) :
    (s.setBlock id b).owners = s.owners := rfl
@[simp] theorem State.setBlock_buf (id : Nat) (b : Block) :
    (s.setBlock id b).buf = s.buf := rfl
@[simp] theorem State.setBlock_admitted (id : Nat) (b : Block) :
    (s.setBlock id b).admitted = s.admitted := rfl
@[simp] theorem State.setBlock_program (id : Nat) (b : Block) :
    (s.setBlock id b).program = s.program := rfl
@[simp] theorem State.setBlock_received (id : Nat) (b : Block) :
    (s.setBlock id b).received = s.received := rfl
@[simp] theorem State.setBlock_trace (id : Nat) (b : Block) :
    (s.setBlock id b).trace = s.trace := rfl
@[simp] theorem State.setBlock_turn (id : Nat) (b : Block) :
    (s.setBlock id b).turn = s.turn := rfl
@[simp] theorem State.setBlock_script (id : Nat) (b : Block) :
    (s.setBlock id b).script = s.script := rfl
@[simp] theorem State.setBlock_drawn (id : Nat) (b : Block) :
    (s.setBlock id b).drawn = s.drawn := rfl

/-! ## After `setEngine` -/

@[simp] theorem State.setEngine_params (e : Nat) (v : Engine) :
    (s.setEngine e v).params = s.params := rfl
@[simp] theorem State.setEngine_blocks (e : Nat) (v : Engine) :
    (s.setEngine e v).blocks = s.blocks := rfl
@[simp] theorem State.setEngine_nextId (e : Nat) (v : Engine) :
    (s.setEngine e v).nextId = s.nextId := rfl
@[simp] theorem State.setEngine_engines (e : Nat) (v : Engine) :
    (s.setEngine e v).engines = Table.put s.engines e v := rfl
@[simp] theorem State.setEngine_gens (e : Nat) (v : Engine) :
    (s.setEngine e v).gens = s.gens := rfl
@[simp] theorem State.setEngine_routes (e : Nat) (v : Engine) :
    (s.setEngine e v).routes = s.routes := rfl
@[simp] theorem State.setEngine_owners (e : Nat) (v : Engine) :
    (s.setEngine e v).owners = s.owners := rfl
@[simp] theorem State.setEngine_buf (e : Nat) (v : Engine) :
    (s.setEngine e v).buf = s.buf := rfl
@[simp] theorem State.setEngine_admitted (e : Nat) (v : Engine) :
    (s.setEngine e v).admitted = s.admitted := rfl
@[simp] theorem State.setEngine_program (e : Nat) (v : Engine) :
    (s.setEngine e v).program = s.program := rfl
@[simp] theorem State.setEngine_received (e : Nat) (v : Engine) :
    (s.setEngine e v).received = s.received := rfl
@[simp] theorem State.setEngine_trace (e : Nat) (v : Engine) :
    (s.setEngine e v).trace = s.trace := rfl
@[simp] theorem State.setEngine_turn (e : Nat) (v : Engine) :
    (s.setEngine e v).turn = s.turn := rfl
@[simp] theorem State.setEngine_script (e : Nat) (v : Engine) :
    (s.setEngine e v).script = s.script := rfl
@[simp] theorem State.setEngine_drawn (e : Nat) (v : Engine) :
    (s.setEngine e v).drawn = s.drawn := rfl

/-! ## After `setGen` -/

@[simp] theorem State.setGen_params (k : Nat) (v : Generator) :
    (s.setGen k v).params = s.params := rfl
@[simp] theorem State.setGen_blocks (k : Nat) (v : Generator) :
    (s.setGen k v).blocks = s.blocks := rfl
@[simp] theorem State.setGen_nextId (k : Nat) (v : Generator) :
    (s.setGen k v).nextId = s.nextId := rfl
@[simp] theorem State.setGen_engines (k : Nat) (v : Generator) :
    (s.setGen k v).engines = s.engines := rfl
@[simp] theorem State.setGen_gens (k : Nat) (v : Generator) :
    (s.setGen k v).gens = Table.put s.gens k v := rfl
@[simp] theorem State.setGen_routes (k : Nat) (v : Generator) :
    (s.setGen k v).routes = s.routes := rfl
@[simp] theorem State.setGen_owners (k : Nat) (v : Generator) :
    (s.setGen k v).owners = s.owners := rfl
@[simp] theorem State.setGen_buf (k : Nat) (v : Generator) :
    (s.setGen k v).buf = s.buf := rfl
@[simp] theorem State.setGen_admitted (k : Nat) (v : Generator) :
    (s.setGen k v).admitted = s.admitted := rfl
@[simp] theorem State.setGen_program (k : Nat) (v : Generator) :
    (s.setGen k v).program = s.program := rfl
@[simp] theorem State.setGen_received (k : Nat) (v : Generator) :
    (s.setGen k v).received = s.received := rfl
@[simp] theorem State.setGen_trace (k : Nat) (v : Generator) :
    (s.setGen k v).trace = s.trace := rfl
@[simp] theorem State.setGen_turn (k : Nat) (v : Generator) :
    (s.setGen k v).turn = s.turn := rfl
@[simp] theorem State.setGen_script (k : Nat) (v : Generator) :
    (s.setGen k v).script = s.script := rfl
@[simp] theorem State.setGen_drawn (k : Nat) (v : Generator) :
    (s.setGen k v).drawn = s.drawn := rfl

/-! ## After `setRoute` -/

@[simp] theorem State.setRoute_params (e : Nat) (c : UnitIx) (v : Option Nat) :
    (s.setRoute e c v).params = s.params := rfl
@[simp] theorem State.setRoute_blocks (e : Nat) (c : UnitIx) (v : Option Nat) :
    (s.setRoute e c v).blocks = s.blocks := rfl
@[simp] theorem State.setRoute_nextId (e : Nat) (c : UnitIx) (v : Option Nat) :
    (s.setRoute e c v).nextId = s.nextId := rfl
@[simp] theorem State.setRoute_engines (e : Nat) (c : UnitIx) (v : Option Nat) :
    (s.setRoute e c v).engines = s.engines := rfl
@[simp] theorem State.setRoute_gens (e : Nat) (c : UnitIx) (v : Option Nat) :
    (s.setRoute e c v).gens = s.gens := rfl
@[simp] theorem State.setRoute_routes (e : Nat) (c : UnitIx) (v : Option Nat) :
    (s.setRoute e c v).routes = Table.put s.routes e ((s.routesOf e).set c v) := rfl
@[simp] theorem State.setRoute_owners (e : Nat) (c : UnitIx) (v : Option Nat) :
    (s.setRoute e c v).owners = s.owners := rfl
@[simp] theorem State.setRoute_buf (e : Nat) (c : UnitIx) (v : Option Nat) :
    (s.setRoute e c v).buf = s.buf := rfl
@[simp] theorem State.setRoute_admitted (e : Nat) (c : UnitIx) (v : Option Nat) :
    (s.setRoute e c v).admitted = s.admitted := rfl
@[simp] theorem State.setRoute_program (e : Nat) (c : UnitIx) (v : Option Nat) :
    (s.setRoute e c v).program = s.program := rfl
@[simp] theorem State.setRoute_received (e : Nat) (c : UnitIx) (v : Option Nat) :
    (s.setRoute e c v).received = s.received := rfl
@[simp] theorem State.setRoute_trace (e : Nat) (c : UnitIx) (v : Option Nat) :
    (s.setRoute e c v).trace = s.trace := rfl
@[simp] theorem State.setRoute_turn (e : Nat) (c : UnitIx) (v : Option Nat) :
    (s.setRoute e c v).turn = s.turn := rfl
@[simp] theorem State.setRoute_script (e : Nat) (c : UnitIx) (v : Option Nat) :
    (s.setRoute e c v).script = s.script := rfl
@[simp] theorem State.setRoute_drawn (e : Nat) (c : UnitIx) (v : Option Nat) :
    (s.setRoute e c v).drawn = s.drawn := rfl

/-! ## After `setOwner` -/

@[simp] theorem State.setOwner_params (e : Nat) (v : Option Nat) :
    (s.setOwner e v).params = s.params := rfl
@[simp] theorem State.setOwner_blocks (e : Nat) (v : Option Nat) :
    (s.setOwner e v).blocks = s.blocks := rfl
@[simp] theorem State.setOwner_nextId (e : Nat) (v : Option Nat) :
    (s.setOwner e v).nextId = s.nextId := rfl
@[simp] theorem State.setOwner_engines (e : Nat) (v : Option Nat) :
    (s.setOwner e v).engines = s.engines := rfl
@[simp] theorem State.setOwner_gens (e : Nat) (v : Option Nat) :
    (s.setOwner e v).gens = s.gens := rfl
@[simp] theorem State.setOwner_routes (e : Nat) (v : Option Nat) :
    (s.setOwner e v).routes = s.routes := rfl
@[simp] theorem State.setOwner_owners (e : Nat) (v : Option Nat) :
    (s.setOwner e v).owners = Table.put s.owners e v := rfl
@[simp] theorem State.setOwner_buf (e : Nat) (v : Option Nat) :
    (s.setOwner e v).buf = s.buf := rfl
@[simp] theorem State.setOwner_admitted (e : Nat) (v : Option Nat) :
    (s.setOwner e v).admitted = s.admitted := rfl
@[simp] theorem State.setOwner_program (e : Nat) (v : Option Nat) :
    (s.setOwner e v).program = s.program := rfl
@[simp] theorem State.setOwner_received (e : Nat) (v : Option Nat) :
    (s.setOwner e v).received = s.received := rfl
@[simp] theorem State.setOwner_trace (e : Nat) (v : Option Nat) :
    (s.setOwner e v).trace = s.trace := rfl
@[simp] theorem State.setOwner_turn (e : Nat) (v : Option Nat) :
    (s.setOwner e v).turn = s.turn := rfl
@[simp] theorem State.setOwner_script (e : Nat) (v : Option Nat) :
    (s.setOwner e v).script = s.script := rfl
@[simp] theorem State.setOwner_drawn (e : Nat) (v : Option Nat) :
    (s.setOwner e v).drawn = s.drawn := rfl

/-! ## After `setBuf` -/

@[simp] theorem State.setBuf_params (m : Memory) :
    (s.setBuf m).params = s.params := rfl
@[simp] theorem State.setBuf_blocks (m : Memory) :
    (s.setBuf m).blocks = s.blocks := rfl
@[simp] theorem State.setBuf_nextId (m : Memory) :
    (s.setBuf m).nextId = s.nextId := rfl
@[simp] theorem State.setBuf_engines (m : Memory) :
    (s.setBuf m).engines = s.engines := rfl
@[simp] theorem State.setBuf_gens (m : Memory) :
    (s.setBuf m).gens = s.gens := rfl
@[simp] theorem State.setBuf_routes (m : Memory) :
    (s.setBuf m).routes = s.routes := rfl
@[simp] theorem State.setBuf_owners (m : Memory) :
    (s.setBuf m).owners = s.owners := rfl
@[simp] theorem State.setBuf_buf (m : Memory) :
    (s.setBuf m).buf = m := rfl
@[simp] theorem State.setBuf_admitted (m : Memory) :
    (s.setBuf m).admitted = s.admitted := rfl
@[simp] theorem State.setBuf_program (m : Memory) :
    (s.setBuf m).program = s.program := rfl
@[simp] theorem State.setBuf_received (m : Memory) :
    (s.setBuf m).received = s.received := rfl
@[simp] theorem State.setBuf_trace (m : Memory) :
    (s.setBuf m).trace = s.trace := rfl
@[simp] theorem State.setBuf_turn (m : Memory) :
    (s.setBuf m).turn = s.turn := rfl
@[simp] theorem State.setBuf_script (m : Memory) :
    (s.setBuf m).script = s.script := rfl
@[simp] theorem State.setBuf_drawn (m : Memory) :
    (s.setBuf m).drawn = s.drawn := rfl

/-! ## After `log` -/

@[simp] theorem State.log_params (ev : Event) :
    (s.log ev).params = s.params := rfl
@[simp] theorem State.log_blocks (ev : Event) :
    (s.log ev).blocks = s.blocks := rfl
@[simp] theorem State.log_nextId (ev : Event) :
    (s.log ev).nextId = s.nextId := rfl
@[simp] theorem State.log_engines (ev : Event) :
    (s.log ev).engines = s.engines := rfl
@[simp] theorem State.log_gens (ev : Event) :
    (s.log ev).gens = s.gens := rfl
@[simp] theorem State.log_routes (ev : Event) :
    (s.log ev).routes = s.routes := rfl
@[simp] theorem State.log_owners (ev : Event) :
    (s.log ev).owners = s.owners := rfl
@[simp] theorem State.log_buf (ev : Event) :
    (s.log ev).buf = s.buf := rfl
@[simp] theorem State.log_admitted (ev : Event) :
    (s.log ev).admitted = s.admitted := rfl
@[simp] theorem State.log_program (ev : Event) :
    (s.log ev).program = s.program := rfl
@[simp] theorem State.log_received (ev : Event) :
    (s.log ev).received = s.received := rfl
@[simp] theorem State.log_trace (ev : Event) :
    (s.log ev).trace = s.trace ++ [ev] := rfl
@[simp] theorem State.log_turn (ev : Event) :
    (s.log ev).turn = s.turn := rfl
@[simp] theorem State.log_script (ev : Event) :
    (s.log ev).script = s.script := rfl
@[simp] theorem State.log_drawn (ev : Event) :
    (s.log ev).drawn = s.drawn := rfl

/-! ## After `nextAnswer` -/

@[simp] theorem State.nextAnswer_params :
    s.nextAnswer.params = s.params := rfl
@[simp] theorem State.nextAnswer_blocks :
    s.nextAnswer.blocks = s.blocks := rfl
@[simp] theorem State.nextAnswer_nextId :
    s.nextAnswer.nextId = s.nextId := rfl
@[simp] theorem State.nextAnswer_engines :
    s.nextAnswer.engines = s.engines := rfl
@[simp] theorem State.nextAnswer_gens :
    s.nextAnswer.gens = s.gens := rfl
@[simp] theorem State.nextAnswer_routes :
    s.nextAnswer.routes = s.routes := rfl
@[simp] theorem State.nextAnswer_owners :
    s.nextAnswer.owners = s.owners := rfl
@[simp] theorem State.nextAnswer_buf :
    s.nextAnswer.buf = s.buf := rfl
@[simp] theorem State.nextAnswer_admitted :
    s.nextAnswer.admitted = s.admitted := rfl
@[simp] theorem State.nextAnswer_program :
    s.nextAnswer.program = s.program := rfl
@[simp] theorem State.nextAnswer_received :
    s.nextAnswer.received = s.received := rfl
@[simp] theorem State.nextAnswer_trace :
    s.nextAnswer.trace = s.trace := rfl
@[simp] theorem State.nextAnswer_turn :
    s.nextAnswer.turn = s.answer.agent := rfl
@[simp] theorem State.nextAnswer_script :
    s.nextAnswer.script = s.script.tail := rfl
@[simp] theorem State.nextAnswer_drawn :
    s.nextAnswer.drawn = s.drawn + 1 := rfl

/-! ## The named reads after an update -/

theorem State.block?_setBlock (id j : Nat) (b : Block) :
    (s.setBlock id b).block? j = if j = id then some b else s.block? j :=
  Table.at?_put _ _ _ _

@[simp] theorem State.block?_setBlock_self (id : Nat) (b : Block) :
    (s.setBlock id b).block? id = some b := by simp [State.block?_setBlock]

theorem State.engine_setEngine (e j : Nat) (v : Engine) :
    (s.setEngine e v).engine j = if j = e then v else s.engine j := by
  unfold State.engine
  rw [State.setEngine_engines, Table.at?_put]
  split <;> rfl

@[simp] theorem State.engine_setEngine_self (e : Nat) (v : Engine) :
    (s.setEngine e v).engine e = v := by simp [State.engine_setEngine]

theorem State.gen_setGen (k j : Nat) (v : Generator) :
    (s.setGen k v).gen j = if j = k then v else s.gen j := by
  unfold State.gen
  rw [State.setGen_gens, Table.at?_put]
  split <;> rfl

@[simp] theorem State.gen_setGen_self (k : Nat) (v : Generator) : (s.setGen k v).gen k = v := by
  simp [State.gen_setGen]

theorem State.routesOf_setRoute (e j : Nat) (c : UnitIx) (v : Option Nat) :
    (s.setRoute e c v).routesOf j = if j = e then (s.routesOf e).set c v else s.routesOf j := by
  unfold State.routesOf
  rw [State.setRoute_routes, Table.at?_put]
  split <;> rfl

theorem State.route_setRoute (e j : Nat) (c d : UnitIx) (v : Option Nat) :
    (s.setRoute e c v).route j d = if j = e ∧ d = c then v else s.route j d := by
  unfold State.route
  rw [State.routesOf_setRoute]
  by_cases h : j = e
  · subst h; simp [Pair.get_set]
  · simp [h]

theorem State.owner_setOwner (e j : Nat) (v : Option Nat) :
    (s.setOwner e v).owner j = if j = e then v else s.owner j := by
  unfold State.owner
  rw [State.setOwner_owners, Table.at?_put]
  split <;> rfl

@[simp] theorem State.owner_setOwner_self (e : Nat) (v : Option Nat) :
    (s.setOwner e v).owner e = v := by simp [State.owner_setOwner]

@[simp] theorem State.engine_setBlock (id : Nat) (b : Block) (j : Nat) :
    (s.setBlock id b).engine j = s.engine j := rfl
@[simp] theorem State.gen_setBlock (id : Nat) (b : Block) (j : Nat) :
    (s.setBlock id b).gen j = s.gen j := rfl
@[simp] theorem State.routesOf_setBlock (id : Nat) (b : Block) (j : Nat) :
    (s.setBlock id b).routesOf j = s.routesOf j := rfl
@[simp] theorem State.route_setBlock (id : Nat) (b : Block) (j : Nat) (d : UnitIx) :
    (s.setBlock id b).route j d = s.route j d := rfl
@[simp] theorem State.owner_setBlock (id : Nat) (b : Block) (j : Nat) :
    (s.setBlock id b).owner j = s.owner j := rfl
@[simp] theorem State.readByte_setBlock (id : Nat) (b : Block) (a : Nat) :
    (s.setBlock id b).readByte a = s.readByte a := rfl
@[simp] theorem State.answer_setBlock (id : Nat) (b : Block) :
    (s.setBlock id b).answer = s.answer := rfl
@[simp] theorem State.ready_setBlock (id : Nat) (b : Block) (j : Nat) (n : UnitIx) :
    (s.setBlock id b).ready j n = s.ready j n := rfl
@[simp] theorem State.dataReg_setBlock (id : Nat) (b : Block) (j : Nat) (n : UnitIx) :
    (s.setBlock id b).dataReg j n = s.dataReg j n := rfl
@[simp] theorem State.block?_setEngine (e : Nat) (v : Engine) (j : Nat) :
    (s.setEngine e v).block? j = s.block? j := rfl
@[simp] theorem State.gen_setEngine (e : Nat) (v : Engine) (j : Nat) :
    (s.setEngine e v).gen j = s.gen j := rfl
@[simp] theorem State.routesOf_setEngine (e : Nat) (v : Engine) (j : Nat) :
    (s.setEngine e v).routesOf j = s.routesOf j := rfl
@[simp] theorem State.route_setEngine (e : Nat) (v : Engine) (j : Nat) (d : UnitIx) :
    (s.setEngine e v).route j d = s.route j d := rfl
@[simp] theorem State.owner_setEngine (e : Nat) (v : Engine) (j : Nat) :
    (s.setEngine e v).owner j = s.owner j := rfl
@[simp] theorem State.readByte_setEngine (e : Nat) (v : Engine) (a : Nat) :
    (s.setEngine e v).readByte a = s.readByte a := rfl
@[simp] theorem State.answer_setEngine (e : Nat) (v : Engine) :
    (s.setEngine e v).answer = s.answer := rfl
@[simp] theorem State.block?_setGen (k : Nat) (v : Generator) (j : Nat) :
    (s.setGen k v).block? j = s.block? j := rfl
@[simp] theorem State.engine_setGen (k : Nat) (v : Generator) (j : Nat) :
    (s.setGen k v).engine j = s.engine j := rfl
@[simp] theorem State.routesOf_setGen (k : Nat) (v : Generator) (j : Nat) :
    (s.setGen k v).routesOf j = s.routesOf j := rfl
@[simp] theorem State.route_setGen (k : Nat) (v : Generator) (j : Nat) (d : UnitIx) :
    (s.setGen k v).route j d = s.route j d := rfl
@[simp] theorem State.owner_setGen (k : Nat) (v : Generator) (j : Nat) :
    (s.setGen k v).owner j = s.owner j := rfl
@[simp] theorem State.readByte_setGen (k : Nat) (v : Generator) (a : Nat) :
    (s.setGen k v).readByte a = s.readByte a := rfl
@[simp] theorem State.answer_setGen (k : Nat) (v : Generator) :
    (s.setGen k v).answer = s.answer := rfl
@[simp] theorem State.ready_setGen (k : Nat) (v : Generator) (j : Nat) (n : UnitIx) :
    (s.setGen k v).ready j n = s.ready j n := rfl
@[simp] theorem State.dataReg_setGen (k : Nat) (v : Generator) (j : Nat) (n : UnitIx) :
    (s.setGen k v).dataReg j n = s.dataReg j n := rfl
@[simp] theorem State.block?_setRoute (e : Nat) (c : UnitIx) (v : Option Nat) (j : Nat) :
    (s.setRoute e c v).block? j = s.block? j := rfl
@[simp] theorem State.engine_setRoute (e : Nat) (c : UnitIx) (v : Option Nat) (j : Nat) :
    (s.setRoute e c v).engine j = s.engine j := rfl
@[simp] theorem State.gen_setRoute (e : Nat) (c : UnitIx) (v : Option Nat) (j : Nat) :
    (s.setRoute e c v).gen j = s.gen j := rfl
@[simp] theorem State.owner_setRoute (e : Nat) (c : UnitIx) (v : Option Nat) (j : Nat) :
    (s.setRoute e c v).owner j = s.owner j := rfl
@[simp] theorem State.readByte_setRoute (e : Nat) (c : UnitIx) (v : Option Nat) (a : Nat) :
    (s.setRoute e c v).readByte a = s.readByte a := rfl
@[simp] theorem State.answer_setRoute (e : Nat) (c : UnitIx) (v : Option Nat) :
    (s.setRoute e c v).answer = s.answer := rfl
@[simp] theorem State.ready_setRoute (e : Nat) (c : UnitIx) (v : Option Nat) (j : Nat) (n : UnitIx) :
    (s.setRoute e c v).ready j n = s.ready j n := rfl
@[simp] theorem State.dataReg_setRoute (e : Nat) (c : UnitIx) (v : Option Nat) (j : Nat) (n : UnitIx) :
    (s.setRoute e c v).dataReg j n = s.dataReg j n := rfl
@[simp] theorem State.block?_setOwner (e : Nat) (v : Option Nat) (j : Nat) :
    (s.setOwner e v).block? j = s.block? j := rfl
@[simp] theorem State.engine_setOwner (e : Nat) (v : Option Nat) (j : Nat) :
    (s.setOwner e v).engine j = s.engine j := rfl
@[simp] theorem State.gen_setOwner (e : Nat) (v : Option Nat) (j : Nat) :
    (s.setOwner e v).gen j = s.gen j := rfl
@[simp] theorem State.routesOf_setOwner (e : Nat) (v : Option Nat) (j : Nat) :
    (s.setOwner e v).routesOf j = s.routesOf j := rfl
@[simp] theorem State.route_setOwner (e : Nat) (v : Option Nat) (j : Nat) (d : UnitIx) :
    (s.setOwner e v).route j d = s.route j d := rfl
@[simp] theorem State.readByte_setOwner (e : Nat) (v : Option Nat) (a : Nat) :
    (s.setOwner e v).readByte a = s.readByte a := rfl
@[simp] theorem State.answer_setOwner (e : Nat) (v : Option Nat) :
    (s.setOwner e v).answer = s.answer := rfl
@[simp] theorem State.ready_setOwner (e : Nat) (v : Option Nat) (j : Nat) (n : UnitIx) :
    (s.setOwner e v).ready j n = s.ready j n := rfl
@[simp] theorem State.dataReg_setOwner (e : Nat) (v : Option Nat) (j : Nat) (n : UnitIx) :
    (s.setOwner e v).dataReg j n = s.dataReg j n := rfl
@[simp] theorem State.block?_setBuf (m : Memory) (j : Nat) :
    (s.setBuf m).block? j = s.block? j := rfl
@[simp] theorem State.engine_setBuf (m : Memory) (j : Nat) :
    (s.setBuf m).engine j = s.engine j := rfl
@[simp] theorem State.gen_setBuf (m : Memory) (j : Nat) :
    (s.setBuf m).gen j = s.gen j := rfl
@[simp] theorem State.routesOf_setBuf (m : Memory) (j : Nat) :
    (s.setBuf m).routesOf j = s.routesOf j := rfl
@[simp] theorem State.route_setBuf (m : Memory) (j : Nat) (d : UnitIx) :
    (s.setBuf m).route j d = s.route j d := rfl
@[simp] theorem State.owner_setBuf (m : Memory) (j : Nat) :
    (s.setBuf m).owner j = s.owner j := rfl
@[simp] theorem State.answer_setBuf (m : Memory) :
    (s.setBuf m).answer = s.answer := rfl
@[simp] theorem State.ready_setBuf (m : Memory) (j : Nat) (n : UnitIx) :
    (s.setBuf m).ready j n = s.ready j n := rfl
@[simp] theorem State.dataReg_setBuf (m : Memory) (j : Nat) (n : UnitIx) :
    (s.setBuf m).dataReg j n = s.dataReg j n := rfl
@[simp] theorem State.block?_log (ev : Event) (j : Nat) :
    (s.log ev).block? j = s.block? j := rfl
@[simp] theorem State.engine_log (ev : Event) (j : Nat) :
    (s.log ev).engine j = s.engine j := rfl
@[simp] theorem State.gen_log (ev : Event) (j : Nat) :
    (s.log ev).gen j = s.gen j := rfl
@[simp] theorem State.routesOf_log (ev : Event) (j : Nat) :
    (s.log ev).routesOf j = s.routesOf j := rfl
@[simp] theorem State.route_log (ev : Event) (j : Nat) (d : UnitIx) :
    (s.log ev).route j d = s.route j d := rfl
@[simp] theorem State.owner_log (ev : Event) (j : Nat) :
    (s.log ev).owner j = s.owner j := rfl
@[simp] theorem State.readByte_log (ev : Event) (a : Nat) :
    (s.log ev).readByte a = s.readByte a := rfl
@[simp] theorem State.answer_log (ev : Event) :
    (s.log ev).answer = s.answer := rfl
@[simp] theorem State.ready_log (ev : Event) (j : Nat) (n : UnitIx) :
    (s.log ev).ready j n = s.ready j n := rfl
@[simp] theorem State.dataReg_log (ev : Event) (j : Nat) (n : UnitIx) :
    (s.log ev).dataReg j n = s.dataReg j n := rfl
@[simp] theorem State.block?_nextAnswer (j : Nat) :
    s.nextAnswer.block? j = s.block? j := rfl
@[simp] theorem State.engine_nextAnswer (j : Nat) :
    s.nextAnswer.engine j = s.engine j := rfl
@[simp] theorem State.gen_nextAnswer (j : Nat) :
    s.nextAnswer.gen j = s.gen j := rfl
@[simp] theorem State.routesOf_nextAnswer (j : Nat) :
    s.nextAnswer.routesOf j = s.routesOf j := rfl
@[simp] theorem State.route_nextAnswer (j : Nat) (d : UnitIx) :
    s.nextAnswer.route j d = s.route j d := rfl
@[simp] theorem State.owner_nextAnswer (j : Nat) :
    s.nextAnswer.owner j = s.owner j := rfl
@[simp] theorem State.readByte_nextAnswer (a : Nat) :
    s.nextAnswer.readByte a = s.readByte a := rfl
@[simp] theorem State.ready_nextAnswer (j : Nat) (n : UnitIx) :
    s.nextAnswer.ready j n = s.ready j n := rfl
@[simp] theorem State.dataReg_nextAnswer (j : Nat) (n : UnitIx) :
    s.nextAnswer.dataReg j n = s.dataReg j n := rfl

@[simp] theorem State.own_eq (e : Nat) (v : Option Nat) :
    s.own e v = (s.setOwner e v).log (.own e v) := rfl

end Sys2Proof.Machine
end

