-- ==== Sys2Proof/Laws/Memory.lean ====
section
/-! SUPPORT. Host memory: every write keeps the canonical form, and a read gives the byte written. -/

namespace Sys2Proof.Machine

theorem Memory.wf_put {m : Memory} {a : Nat} (v : Byte) (h : m.wf = true) (ha : a < 2 ^ 32) :
    Memory.wf (Table.put m a v) = true := by
  simp only [Memory.wf, Bool.and_eq_true] at h ⊢
  exact ⟨Table.wf_put a v h.1, Table.all_put h.2 (by simpa using ha)⟩

/-- A word store keeps the canonical form. -/
theorem Memory.wf_writeWord {m : Memory} (en : Endian) {a : Nat} (w : Word) (h : m.wf = true)
    (ha : a + 3 < 2 ^ 32) : (m.writeWord en a w).wf = true :=
  Memory.wf_put _ (Memory.wf_put _ (Memory.wf_put _ (Memory.wf_put _ h (by omega)) (by omega))
    (by omega)) ha

/-- Reading after a word store: byte `j` of the word inside it, what was there elsewhere. -/
theorem Memory.at?_writeWord (m : Memory) (en : Endian) (a : Nat) (w : Word) (x : Nat) :
    Table.at? (m.writeWord en a w) x =
      if a ≤ x ∧ x < a + 4 then some (byteOf en w (x - a)) else Table.at? m x := by
  unfold Memory.writeWord
  simp only [Table.at?_put]
  by_cases h : a ≤ x ∧ x < a + 4
  · obtain ⟨d, hd, rfl⟩ : ∃ d, d < 4 ∧ x = a + d := ⟨x - a, by omega, by omega⟩
    simp only [h, and_self, if_true, Nat.add_sub_cancel_left]
    interval_cases d <;> simp
  · rw [if_neg (by omega), if_neg (by omega), if_neg (by omega), if_neg (by omega), if_neg h]

/-- A byte of host memory after a word store (R58, R59). -/
theorem State.readByte_memWrite (s : State) (a : Nat) (w : Word) (x : Nat) :
    (s.memWrite a w).readByte x =
      if a ≤ x ∧ x < a + 4 then byteOf s.params.hostEndian w (x - a) else s.readByte x := by
  simp only [State.readByte, State.memWrite, State.log_buf, State.setBuf_buf,
    Memory.at?_writeWord]
  split <;> rfl

/-- The four bytes of a word put together are the word, in either order. -/
theorem wordOfBytes_byteOf (en : Endian) (w : Word) :
    wordOfBytes en (byteOf en w 0) (byteOf en w 1) (byteOf en w 2) (byteOf en w 3) = w := by
  apply BitVec.eq_of_getLsbD_eq
  intro i hi
  cases en
  all_goals
    simp only [wordOfBytes, byteOf, BitVec.getLsbD_append, BitVec.getLsbD_extractLsb']
    interval_cases i <;> simp

/-- A word read back after it was stored (R58, R59). -/
theorem State.readWord_memWrite_self (s : State) (a : Nat) (w : Word) :
    (s.memWrite a w).readWord a = w := by
  have hp : (s.memWrite a w).params = s.params := rfl
  simp only [State.readWord, hp, State.readByte_memWrite]
  simp [wordOfBytes_byteOf]

/-- A word read elsewhere is as it was. -/
theorem State.readWord_memWrite_other (s : State) (a x : Nat) (w : Word) (h : x + 4 ≤ a ∨ a + 4 ≤ x) :
    (s.memWrite a w).readWord x = s.readWord x := by
  have hp : (s.memWrite a w).params = s.params := rfl
  simp only [State.readWord, hp, State.readByte_memWrite]
  rw [if_neg (by omega), if_neg (by omega), if_neg (by omega), if_neg (by omega)]

/-- An admitted access ends at `2^32` or below. -/
theorem State.accessOk_le {s : State} {n a : Nat} (h : s.accessOk n a = true) : a + n ≤ 2 ^ 32 := by
  simp only [State.accessOk, Bool.and_eq_true, decide_eq_true_eq] at h
  exact h.1.1

/-- An admitted word access ends below `2^32`. -/
theorem State.memOk_lt {s : State} {a : Nat} (h : s.memOk a = true) : a + 3 < 2 ^ 32 :=
  State.accessOk_le (n := 4) h

/-- A byte store keeps the canonical form. -/
theorem Memory.wf_writeByte {m : Memory} {a : Nat} (v : Byte) (h : m.wf = true) (ha : a < 2 ^ 32) :
    (m.writeByte a v).wf = true := Memory.wf_put v h ha

/-- A halfword store keeps the canonical form. -/
theorem Memory.wf_writeHalf {m : Memory} (en : Endian) {a : Nat} (v : BitVec 16) (h : m.wf = true)
    (ha : a + 1 < 2 ^ 32) : (m.writeHalf en a v).wf = true :=
  Memory.wf_writeByte _ (Memory.wf_writeByte _ h (by omega)) ha

/-- Reading after a byte store. -/
theorem Memory.at?_writeByte (m : Memory) (a : Nat) (v : Byte) (x : Nat) :
    Table.at? (m.writeByte a v) x = if x = a then some v else Table.at? m x := Table.at?_put m a x v

/-- Reading after a halfword store: byte `x - a` of it inside it, what was there elsewhere. -/
theorem Memory.at?_writeHalf (m : Memory) (en : Endian) (a : Nat) (v : BitVec 16) (x : Nat) :
    Table.at? (m.writeHalf en a v) x =
      if a ≤ x ∧ x < a + 2 then some (halfByteOf en v (x - a)) else Table.at? m x := by
  simp only [Memory.writeHalf, Memory.at?_writeByte]
  by_cases h : a ≤ x ∧ x < a + 2
  · obtain ⟨d, hd, rfl⟩ : ∃ d, d < 2 ∧ x = a + d := ⟨x - a, by omega, by omega⟩
    simp only [h, and_self, if_true, Nat.add_sub_cancel_left]
    interval_cases d <;> simp
  · rw [if_neg (by omega), if_neg (by omega), if_neg h]

/-- The two bytes of a halfword put together are the halfword, in either order. -/
theorem halfOfBytes_halfByteOf (en : Endian) (h : BitVec 16) :
    halfOfBytes en (halfByteOf en h 0) (halfByteOf en h 1) = h := by
  apply BitVec.eq_of_getLsbD_eq
  intro i hi
  cases en
  all_goals
    simp only [halfOfBytes, halfByteOf, BitVec.getLsbD_append, BitVec.getLsbD_extractLsb']
    interval_cases i <;> simp

end Sys2Proof.Machine
end

