-- ==== Sys2Proof/Laws/Ops.lean ====
section
/-! SUPPORT. What each shared operation can do, said once: the parts of the state it leaves alone,
and the block, engine and tables it leaves behind. -/

namespace Sys2Proof.Machine

/-! ## Engine writes and synchronisation -/

/-- A `CTRL` write leaves every effective value as it was (R33). -/
@[simp] theorem Engine.wrCtrl_ctrl (en : Engine) (f : CtrlField) (v : Bool) :
    (en.wrCtrl f v).ctrl = en.ctrl := rfl

@[simp] theorem Engine.wrCtrl_pending (en : Engine) (f : CtrlField) (v : Bool) :
    (en.wrCtrl f v).pending = en.pending.set f (some v) := rfl

@[simp] theorem Engine.wrCtrl_syncbusy (en : Engine) (f : CtrlField) (v : Bool) :
    (en.wrCtrl f v).syncbusy = en.syncbusy.set f true := rfl

@[simp] theorem Engine.wrCtrl_rxrdy (en : Engine) (f : CtrlField) (v : Bool) :
    (en.wrCtrl f v).rxrdy = en.rxrdy := rfl

@[simp] theorem Engine.wrCtrl_clk (en : Engine) (f : CtrlField) (v : Bool) :
    (en.wrCtrl f v).clk = en.clk := rfl

@[simp] theorem Engine.wrCtrl_fmt (en : Engine) (f : CtrlField) (v : Bool) :
    (en.wrCtrl f v).fmt = en.fmt := rfl

@[simp] theorem Engine.wrCtrl_data (en : Engine) (f : CtrlField) (v : Bool) :
    (en.wrCtrl f v).data = en.data := rfl

/-- An ok `SyncWait` of a field other than `SWRST`, written out (R46). -/
theorem Engine.syncOk_of_ne (en d : Engine) (f : CtrlField) (h : f ≠ .swrst) :
    en.syncOk f d =
      { en with
        ctrl := en.ctrl.set f ((en.pending.get f).getD (en.ctrl.get f))
        syncbusy := en.syncbusy.set f false
        pending := en.pending.set f none
        rxrdy := en.rxrdyAfterSync f d } := by
  cases f <;> first | rfl | exact absurd rfl h

/-- A timed-out `SyncWait` of a field other than `SWRST`, written out (R46). -/
theorem Engine.syncTimeout_of_ne (en d : Engine) (f : CtrlField) (h : f ≠ .swrst) :
    en.syncTimeout f d =
      { en with
        ctrl := en.ctrl.set f (d.ctrl.get f)
        syncbusy := en.syncbusy.set f (d.syncbusy.get f)
        pending := en.pending.set f none } := by
  cases f <;> first | rfl | exact absurd rfl h

@[simp] theorem Engine.syncOk_swrst (en d : Engine) : en.syncOk .swrst d = Engine.resetTo d := rfl

@[simp] theorem Engine.syncTimeout_swrst (en d : Engine) :
    en.syncTimeout .swrst d = { d with pending := CtrlFields.all none } := rfl

@[simp] theorem Engine.sync_ok (en d : Engine) (f : CtrlField) :
    en.sync f d .ok = en.syncOk f d := rfl

@[simp] theorem Engine.sync_timeout (en d : Engine) (f : CtrlField) :
    en.sync f d .timeout = en.syncTimeout f d := rfl

@[simp] theorem SyncOutcome.pick_ok {α : Type} (a b : α) : SyncOutcome.ok.pick a b = a := rfl

@[simp] theorem SyncOutcome.pick_timeout {α : Type} (a b : α) : SyncOutcome.timeout.pick a b = b :=
  rfl

@[simp] theorem CallOutcome.pick_ok {α : Type} (a b : α) : CallOutcome.ok.pick a b = a := rfl

@[simp] theorem CallOutcome.pick_fail {α : Type} (a b : α) : CallOutcome.fail.pick a b = b := rfl

/-- A `SyncWait` never sets a ready flag, but for a `SWRST` timeout (R37, R46). -/
theorem Engine.rxrdy_syncOk_le (en d : Engine) (f : CtrlField) (m : UnitIx)
    (h : (en.syncOk f d).rxrdy.get m = true) : en.rxrdy.get m = true := by
  cases f with
  | swrst => cases m <;> simp [Engine.resetTo, Pair.get] at h
  | enable => exact h
  | cken c => exact h
  | seren n =>
    rw [Engine.syncOk_of_ne _ _ _ (by simp)] at h
    simp only [Engine.rxrdyAfterSync] at h
    split at h
    · rw [Pair.get_set] at h
      split at h
      · next hm => subst hm; simp_all
      · exact h
    · exact h

/-- Some write is pending exactly when some field's is. -/
theorem Engine.anyPending_iff (en : Engine) :
    en.anyPending = true ↔ ∃ f, (en.pending.get f).isSome = true :=
  CtrlFields.any_isSome en.pending

/-! ## The state after an engine operation -/

@[simp] theorem State.engine_wrCtrl (s : State) (e j : Nat) (f : CtrlField) (v : Bool) :
    (s.wrCtrl e f v).engine j = if j = e then (s.engine e).wrCtrl f v else s.engine j := by
  simp [State.wrCtrl, State.engine_setEngine]

/-- A `SyncWait`'s effect on the engines (R46). -/
theorem State.engine_afterSync (s : State) (e j : Nat) (f : CtrlField) :
    (s.afterSync e f).engine j =
      if j = e then (s.engine e).sync f s.answer.engine s.syncOutcome else s.engine j := by
  simp [State.afterSync, State.engine_setEngine]

/-- What an operation on engine `e` alone leaves as it was. -/
structure State.EngineOnly (s t : State) (e : Nat) : Prop where
  params : t.params = s.params
  blocks : t.blocks = s.blocks
  nextId : t.nextId = s.nextId
  engine : ∀ j, j ≠ e → t.engine j = s.engine j
  gens : t.gens = s.gens
  routes : t.routes = s.routes
  owners : t.owners = s.owners
  buf : t.buf = s.buf
  admitted : t.admitted = s.admitted
  program : t.program = s.program
  received : t.received = s.received
  turn : t.turn = s.turn
  script : t.script = s.script
  drawn : t.drawn = s.drawn

theorem State.wrCtrl_engineOnly (s : State) (e : Nat) (f : CtrlField) (v : Bool) :
    s.EngineOnly (s.wrCtrl e f v) e := by
  constructor <;> first | rfl | (intro j h; simp [h])

theorem State.afterSync_engineOnly (s : State) (e : Nat) (f : CtrlField) :
    s.EngineOnly (s.afterSync e f) e := by
  constructor <;> first | rfl | (intro j h; simp [State.engine_afterSync, h])

theorem State.wrClk_engineOnly (s : State) (e : Nat) (c : UnitIx) (v : Nat) :
    s.EngineOnly (s.wrClk e c v) e := by
  constructor <;> first | rfl | (intro j h; simp [State.wrClk, State.engine_setEngine, h])

theorem State.wrFmt_engineOnly (s : State) (e : Nat) (m : UnitIx) (v : FrameFormat) :
    s.EngineOnly (s.wrFmt e m v) e := by
  constructor <;> first | rfl | (intro j h; simp [State.wrFmt, State.engine_setEngine, h])

theorem State.rdData_engineOnly (s : State) (e : Nat) (m : UnitIx) :
    s.EngineOnly (s.rdData e m) e := by
  constructor <;> first | rfl | (intro j h; simp [State.rdData, State.engine_setEngine, h])

theorem State.deliver_engineOnly (s : State) (e : Nat) (m : UnitIx) (w : Word) :
    s.EngineOnly (s.deliver e m w) e := by
  constructor <;> first | rfl | (intro j h; simp [State.deliver, State.engine_setEngine, h])

/-- What a collaborator call leaves as it was: only `GEN`, `ROUTE` and the trace can change (R178). -/
structure State.CallOnly (s t : State) : Prop where
  params : t.params = s.params
  blocks : t.blocks = s.blocks
  nextId : t.nextId = s.nextId
  engines : t.engines = s.engines
  owners : t.owners = s.owners
  buf : t.buf = s.buf
  admitted : t.admitted = s.admitted
  program : t.program = s.program
  received : t.received = s.received
  turn : t.turn = s.turn
  script : t.script = s.script
  drawn : t.drawn = s.drawn

theorem State.callEffect_callOnly (s : State) (op : CallOp) : s.CallOnly (s.callEffect op) := by
  unfold State.callEffect
  split <;> (constructor <;> first | rfl | (unfold State.failGen; split <;> rfl))

theorem State.afterCall_callOnly (s : State) (op : CallOp) : s.CallOnly (s.afterCall op) := by
  have h := s.callEffect_callOnly op
  exact ⟨h.params, h.blocks, h.nextId, h.engines, h.owners, h.buf, h.admitted, h.program,
    h.received, h.turn, h.script, h.drawn⟩

@[simp] theorem State.afterCall_engine (s : State) (op : CallOp) (e : Nat) :
    (s.afterCall op).engine e = s.engine e := by
  simp only [State.engine, (s.afterCall_callOnly op).engines]

@[simp] theorem State.afterCall_owner (s : State) (op : CallOp) (e : Nat) :
    (s.afterCall op).owner e = s.owner e := by
  simp only [State.owner, (s.afterCall_callOnly op).owners]

@[simp] theorem State.afterCall_block? (s : State) (op : CallOp) (id : Nat) :
    (s.afterCall op).block? id = s.block? id := by
  simp only [State.block?, (s.afterCall_callOnly op).blocks]

@[simp] theorem State.afterSync_block? (s : State) (e : Nat) (f : CtrlField) (id : Nat) :
    (s.afterSync e f).block? id = s.block? id := rfl

@[simp] theorem State.wrCtrl_block? (s : State) (e : Nat) (f : CtrlField) (v : Bool) (id : Nat) :
    (s.wrCtrl e f v).block? id = s.block? id := rfl

@[simp] theorem State.afterSync_owner (s : State) (e j : Nat) (f : CtrlField) :
    (s.afterSync e f).owner j = s.owner j := rfl

@[simp] theorem State.wrCtrl_owner (s : State) (e j : Nat) (f : CtrlField) (v : Bool) :
    (s.wrCtrl e f v).owner j = s.owner j := rfl

@[simp] theorem State.rdData_block? (s : State) (e : Nat) (m : UnitIx) (id : Nat) :
    (s.rdData e m).block? id = s.block? id := rfl

@[simp] theorem State.rdData_owner (s : State) (e : Nat) (m : UnitIx) (j : Nat) :
    (s.rdData e m).owner j = s.owner j := rfl

@[simp] theorem State.wrClk_block? (s : State) (e : Nat) (c : UnitIx) (v : Nat) (id : Nat) :
    (s.wrClk e c v).block? id = s.block? id := rfl

@[simp] theorem State.wrClk_owner (s : State) (e : Nat) (c : UnitIx) (v : Nat) (j : Nat) :
    (s.wrClk e c v).owner j = s.owner j := rfl

@[simp] theorem State.wrFmt_block? (s : State) (e : Nat) (m : UnitIx) (v : FrameFormat) (id : Nat) :
    (s.wrFmt e m v).block? id = s.block? id := rfl

@[simp] theorem State.wrFmt_owner (s : State) (e : Nat) (m : UnitIx) (v : FrameFormat) (j : Nat) :
    (s.wrFmt e m v).owner j = s.owner j := rfl

@[simp] theorem State.deliver_block? (s : State) (e : Nat) (m : UnitIx) (w : Word) (id : Nat) :
    (s.deliver e m w).block? id = s.block? id := rfl

@[simp] theorem State.deliver_owner (s : State) (e : Nat) (m : UnitIx) (w : Word) (j : Nat) :
    (s.deliver e m w).owner j = s.owner j := rfl

@[simp] theorem State.memWrite_block? (s : State) (a : Nat) (w : Word) (id : Nat) :
    (s.memWrite a w).block? id = s.block? id := rfl

@[simp] theorem State.memWrite_owner (s : State) (a : Nat) (w : Word) (j : Nat) :
    (s.memWrite a w).owner j = s.owner j := rfl

@[simp] theorem State.memWrite_engine (s : State) (a : Nat) (w : Word) (e : Nat) :
    (s.memWrite a w).engine e = s.engine e := rfl

/-! ## Collaborator calls: the remaining fields -/

@[simp] theorem State.failGen_params (s : State) (k : Nat) (v : Generator) :
    (s.failGen k v).params = s.params := by unfold State.failGen; split <;> rfl

@[simp] theorem State.failGen_trace (s : State) (k : Nat) (v : Generator) :
    (s.failGen k v).trace = s.trace := by unfold State.failGen; split <;> rfl

@[simp] theorem State.callEffect_trace (s : State) (op : CallOp) :
    (s.callEffect op).trace = s.trace := by
  unfold State.callEffect
  split <;> first | rfl | exact s.failGen_trace _ _

/-- Every call makes exactly its own event (R12). -/
@[simp] theorem State.afterCall_trace (s : State) (op : CallOp) :
    (s.afterCall op).trace = s.trace ++ [.call op (s.callOutcome op)] := by
  simp [State.afterCall]

@[simp] theorem State.afterCall_params (s : State) (op : CallOp) :
    (s.afterCall op).params = s.params := (s.afterCall_callOnly op).params

@[simp] theorem State.afterCall_nextId (s : State) (op : CallOp) :
    (s.afterCall op).nextId = s.nextId := (s.afterCall_callOnly op).nextId

@[simp] theorem State.afterCall_answer (s : State) (op : CallOp) :
    (s.afterCall op).answer = s.answer := by
  simp only [State.answer, (s.afterCall_callOnly op).script, (s.afterCall_callOnly op).drawn]

/-- A pin call touches no generator and no route (R42). -/
theorem State.callEffect_pinMux (s : State) (pin : Nat) (role : PinRole) :
    s.callEffect (.pinMux pin role) = s := rfl

theorem State.callEffect_pinRelease (s : State) (pin : Nat) :
    s.callEffect (.pinRelease pin) = s := rfl

/-- A pin call is never forced (R178). -/
@[simp] theorem State.callOutcome_pinMux (s : State) (pin : Nat) (role : PinRole) :
    s.callOutcome (.pinMux pin role) = s.answer.call := rfl

@[simp] theorem State.callOutcome_pinRelease (s : State) (pin : Nat) :
    s.callOutcome (.pinRelease pin) = s.answer.call := rfl

/-- A call changes no generator but the one it configures or enables (R178). -/
theorem State.afterCall_gen (s : State) (op : CallOp) (k : Nat)
    (hc : ∀ src g, op ≠ .genConfigure k src g) (he : op ≠ .genEnable k) :
    (s.afterCall op).gen k = s.gen k := by
  show (s.callEffect op).gen k = s.gen k
  cases op with
  | pinMux _ _ => rfl
  | pinRelease _ => rfl
  | genConnect _ _ _ => unfold State.callEffect; cases s.callOutcome _ <;> rfl
  | genConfigure j src g =>
    have hk : k ≠ j := fun h => hc src g (by rw [h])
    unfold State.callEffect State.failGen
    cases s.callOutcome _ <;> simp only [] <;> (try split) <;> simp [State.gen_setGen, hk]
  | genEnable j =>
    have hk : k ≠ j := fun h => he (by rw [h])
    unfold State.callEffect State.failGen
    cases s.callOutcome _ <;> simp only [] <;> (try split) <;> simp [State.gen_setGen, hk]

/-- `GenEnable` changes `GENEN` alone, also where it fails (R178). -/
theorem State.afterCall_genEnable (s : State) (k : Nat) :
    (s.afterCall (.genEnable k)).gen k =
      { s.gen k with genEn := ((s.afterCall (.genEnable k)).gen k).genEn } := by
  change (s.callEffect (.genEnable k)).gen k =
    { s.gen k with genEn := ((s.callEffect (.genEnable k)).gen k).genEn }
  unfold State.callEffect
  cases s.callOutcome (.genEnable k) with
  | ok => simp
  | fail => by_cases h : k < s.params.gclkCount <;> simp [State.failGen, h]

/-- A call changes no route but the one it connects (R178). -/
theorem State.afterCall_route (s : State) (op : CallOp) (e : Nat) (c : UnitIx)
    (h : ∀ k, op ≠ .genConnect e c k) : (s.afterCall op).route e c = s.route e c := by
  show (s.callEffect op).route e c = s.route e c
  unfold State.callEffect
  split
  · rfl
  · rfl
  · rfl
  · unfold State.failGen; split <;> rfl
  · rfl
  · unfold State.failGen; split <;> rfl
  · next e' c' k _ =>
    exact (s.route_setRoute e' e c' c _).trans (if_neg fun ⟨h1, h2⟩ => h k (h1 ▸ h2 ▸ rfl))
  · next e' c' k _ =>
    exact (s.route_setRoute e' e c' c _).trans (if_neg fun ⟨h1, h2⟩ => h k (h1 ▸ h2 ▸ rfl))

/-! ## Finishing -/

@[simp] theorem ErrCode.none_beq_none : (ErrCode.none == ErrCode.none) = true := rfl
@[simp] theorem ErrCode.config_beq_none : (ErrCode.config == ErrCode.none) = false := rfl
@[simp] theorem ErrCode.bind_beq_none : (ErrCode.bind == ErrCode.none) = false := rfl
@[simp] theorem ErrCode.hwsync_beq_none : (ErrCode.hwsync == ErrCode.none) = false := rfl
@[simp] theorem ErrCode.arg_beq_none : (ErrCode.arg == ErrCode.none) = false := rfl
@[simp] theorem ErrCode.state_beq_none : (ErrCode.state == ErrCode.none) = false := rfl
@[simp] theorem ErrCode.illegal_beq_none : (ErrCode.illegal == ErrCode.none) = false := rfl

@[simp] theorem Block.finish_seq (b : Block) (code : ErrCode) : (b.finish code).seq = none := rfl
@[simp] theorem Block.finish_errCode (b : Block) (code : ErrCode) :
    (b.finish code).errCode = code := rfl
@[simp] theorem Block.goto_seq (b : Block) (pos : Position) : (b.goto pos).seq = some pos := rfl
@[simp] theorem Block.fatal_seq (b : Block) : b.fatal.seq = none := rfl
@[simp] theorem Block.fatal_lifecycle (b : Block) : b.fatal.lifecycle = .indeterminate := rfl

/-! ## What a turn offers -/

/-- The sequencer with the turn and its block. -/
theorem State.self_eq_some (s : State) (id : Nat) (b : Block) :
    s.self = some (id, b) ↔ s.turn = .sequencer id ∧ s.block? id = some b := by
  unfold State.self
  split
  · next j hj =>
    split
    · next c hc =>
      constructor
      · intro h
        obtain ⟨rfl, rfl⟩ := Prod.mk.injEq .. ▸ Option.some.inj h
        exact ⟨hj, hc⟩
      · rintro ⟨h1, h2⟩
        have : j = id := Agent.sequencer.inj (hj.symm.trans h1)
        subst this
        rw [hc] at h2
        rw [Option.some.inj h2]
    · next hc =>
      constructor
      · intro h; cases h
      · rintro ⟨h1, h2⟩
        have : j = id := Agent.sequencer.inj (hj.symm.trans h1)
        subst this
        rw [hc] at h2; cases h2
  · next hn =>
    constructor
    · intro h; cases h
    · rintro ⟨h1, _⟩; exact absurd h1 (hn id)

/-! ## What an engine's other units keep -/

theorem Engine.sameFormats_refl (en : Engine) : en.sameFormats en := ⟨rfl, rfl, rfl, fun _ h => h⟩

theorem Engine.sameOtherUnits_refl (en : Engine) (c m : UnitIx) : en.sameOtherUnits en c m :=
  ⟨rfl, rfl, fun _ _ => ⟨rfl, rfl, rfl⟩, fun _ _ => ⟨rfl, rfl, rfl, rfl, rfl⟩⟩

/-- A `SyncWait` of a field other than `SWRST` leaves words, divisors, formats and every other field's
effective value and busy bit alone, and can only clear the ready flag of its own serializer (R46). -/
theorem Engine.sync_frame (en d : Engine) {f : CtrlField} (o : SyncOutcome) (hf : f ≠ .swrst) :
    en.sameFormats (en.sync f d o) ∧
    (∀ m, f ≠ .seren m → (en.sync f d o).rxrdy.get m = en.rxrdy.get m) ∧
    ∀ g, g ≠ f → (en.sync f d o).ctrl.get g = en.ctrl.get g ∧
      (en.sync f d o).syncbusy.get g = en.syncbusy.get g := by
  cases o with
  | ok =>
    rw [Engine.sync_ok, Engine.syncOk_of_ne _ _ _ hf]
    refine ⟨⟨rfl, rfl, rfl, fun m h => ?_⟩, fun m h => ?_, fun g hg => by simp [CtrlFields.get_set, hg]⟩
    · revert h
      simp only [Engine.rxrdyAfterSync]
      split
      · split
        · rw [Pair.get_set]
          split
          · next h => subst h; simp only [Bool.and_eq_true]; exact And.left
          · exact id
        · exact id
      · exact id
    · simp only [Engine.rxrdyAfterSync]
      split
      · split
        · rw [Pair.get_set, if_neg]
          rintro rfl
          exact h rfl
        · rfl
      · rfl
  | timeout =>
    rw [Engine.sync_timeout, Engine.syncTimeout_of_ne _ _ _ hf]
    exact ⟨⟨rfl, rfl, rfl, fun _ h => h⟩, fun _ _ => rfl, fun g hg => by simp [CtrlFields.get_set, hg]⟩

/-- A `SyncWait` of `ENABLE` or of a field of the units `c` and `m` leaves the other units alone (R51). -/
theorem Engine.sync_sameOtherUnits (en d : Engine) (o : SyncOutcome) {f : CtrlField} {c m : UnitIx}
    (hf : f = .enable ∨ f = .cken c ∨ f = .seren m) : en.sameOtherUnits (en.sync f d o) c m := by
  have hn : f ≠ .swrst := by rcases hf with rfl | rfl | rfl <;> simp
  obtain ⟨⟨h1, h2, h3, _⟩, h5, h6⟩ := en.sync_frame d o hn
  have hc : ∀ c', c' ≠ c → CtrlField.cken c' ≠ f := by
    intro c' h; rcases hf with rfl | rfl | rfl <;> simp [h]
  have hm : ∀ m', m' ≠ m → CtrlField.seren m' ≠ f := by
    intro m' h; rcases hf with rfl | rfl | rfl <;> simp [h]
  exact ⟨(h6 .swrst hn.symm).1, (h6 .swrst hn.symm).2,
    fun c' h => ⟨(h6 _ (hc c' h)).1, (h6 _ (hc c' h)).2, by rw [h2]⟩,
    fun m' h => ⟨(h6 _ (hm m' h)).1, (h6 _ (hm m' h)).2, by rw [h3], h5 m' (hm m' h).symm,
      by rw [h1]⟩⟩

/-- A `CTRL` write of `ENABLE` or of a field of the units `c` and `m` leaves the other units alone
(R33, R51). -/
theorem Engine.wrCtrl_sameOtherUnits (en : Engine) (v : Bool) {f : CtrlField} {c m : UnitIx}
    (hf : f = .enable ∨ f = .cken c ∨ f = .seren m) : en.sameOtherUnits (en.wrCtrl f v) c m := by
  have h6 : ∀ g, g ≠ f → (en.wrCtrl f v).syncbusy.get g = en.syncbusy.get g :=
    fun g hg => by simp [CtrlFields.get_set, hg]
  exact ⟨rfl, h6 .swrst (by rcases hf with rfl | rfl | rfl <;> simp),
    fun c' hc => ⟨rfl, h6 (.cken c') (by rcases hf with rfl | rfl | rfl <;> simp [hc]), rfl⟩,
    fun m' hm => ⟨rfl, h6 (.seren m') (by rcases hf with rfl | rfl | rfl <;> simp [hm]), rfl, rfl, rfl⟩⟩

/-- Bit 0 of `STATUS` is `BUSY` (R27, R31). -/
theorem Block.status_busy (b : Block) : b.status.getLsbD 0 = b.busy := by
  simp only [Block.status, BitVec.getLsbD_append]
  cases b.busy <;> simp

/-! ## The host's accesses to BUF -/

/-- A host load that answers was admitted and only hands the host its value (R59, R87). -/
theorem State.hostLoad_next {s t : State} {n a : Nat} {v : Word} (h : s.hostLoad n a v = .next t) :
    s.accessOk n a = true ∧ t = { s with received := s.received ++ [v] } := by
  unfold State.hostLoad at h
  split at h
  · next hok => cases h; exact ⟨hok, rfl⟩
  · cases h

/-- A host store that answers was admitted and only changes host memory (R59, R87). -/
theorem State.hostStore_next {s t : State} {n a : Nat} {m : Memory}
    (h : s.hostStore n a m = .next t) : s.accessOk n a = true ∧ t = s.setBuf m := by
  unfold State.hostStore at h
  split at h
  · next hok => cases h; exact ⟨hok, rfl⟩
  · cases h

theorem State.hostLoad_ok {s : State} {n a : Nat} (v : Word) (h : s.accessOk n a = true) :
    s.hostLoad n a v = .next { s with received := s.received ++ [v] } := if_pos h

theorem State.hostLoad_not_ok {s : State} {n a : Nat} (v : Word) (h : s.accessOk n a = false) :
    s.hostLoad n a v = .fault .hostMemory := if_neg (by simp [h])

theorem State.hostStore_ok {s : State} {n a : Nat} (m : Memory) (h : s.accessOk n a = true) :
    s.hostStore n a m = .next (s.setBuf m) := if_pos h

theorem State.hostStore_not_ok {s : State} {n a : Nat} (m : Memory) (h : s.accessOk n a = false) :
    s.hostStore n a m = .fault .hostMemory := if_neg (by simp [h])

/-- A host's step at its next primitive is what its turn's step does. -/
theorem step_of_host {s : State} (h : s.turn = .host) : step s = advance (hostStep s) := by
  unfold step; rw [h]

/-- `F_REF / (DIV * SCKDIV)` where both divisors are positive (R43). -/
theorem dividedClock_of_pos {f d q : Nat} (hd : 0 < d) (hq : 0 < q) :
    dividedClock f d q = f / (d * q) :=
  if_neg (Nat.mul_ne_zero hd.ne' hq.ne')

end Sys2Proof.Machine
end

