-- ==== Sys2Proof/Laws/Step.lean ====
section
/-! SUPPORT. What a step can do, said once: the agents' cases, and the row a sequencer executes. -/

namespace Sys2Proof.Machine

/-- The row at a position, as a step of block `id`, which is `b`. -/
def rowStep (pos : Position) (id : Nat) (b : Block) (s : State) :
    Host.Outcome State Fault Refusal :=
  match pos with
  | .begin row => .next (beginRow row id b s)
  | .end_ row => .next (endRow row id b s)
  | .configure row => configureRow b.work.st row id b s
  | .read row => readRow row id b s
  | .readBuf row => readBufRow row id b s
  | .getSerIndex => .next (getSerIndexRow id b s)
  | .illegal => .next (illegalRow id b s)

/-- A sequencer that has a command executes the row at its position. -/
theorem sequencerStep_row {s : State} {id : Nat} {b : Block} {pos : Position}
    (hs : s.self = some (id, b)) (hp : b.seq = some pos) :
    sequencerStep s = rowStep pos id b s := by
  cases pos <;>
    simp [sequencerStep, State.fetch, hs, hp, Position.instr, rowStep, exec, execBegin, execEnd,
      execConfigure, execRead, execReadBuf, execGetSerIndex]

/-- A sequencer that has no command, or no block, has no step. -/
theorem sequencerStep_idle {s : State} (h : ∀ id b, s.self = some (id, b) → b.seq = none) :
    sequencerStep s = .next s := by
  unfold sequencerStep State.fetch
  cases hs : s.self with
  | none => rfl
  | some p => obtain ⟨id, b⟩ := p; simp [h id b hs]

theorem advance_next {o : Host.Outcome State Fault Refusal} {t : State} (h : advance o = .next t) :
    ∃ u, o = .next u ∧ t = u.nextAnswer := by
  cases o with
  | next u => exact ⟨u, rfl, by cases h; rfl⟩
  | fault f => cases h
  | refused r => cases h

/-- The cases of a step that answers a next state: a host primitive, a row of one block's command, an
idle sequencer, or a producer. -/
theorem step_cases {s t : State} (h : step s = .next t) :
    ∃ u, t = u.nextAnswer ∧
      ((s.turn = .host ∧ hostStep s = .next u) ∨
       (∃ id b pos, s.turn = .sequencer id ∧ s.block? id = some b ∧ b.seq = some pos ∧
          rowStep pos id b s = .next u) ∨
       ((∃ id, s.turn = .sequencer id) ∧ u = s) ∨
       (∃ e m, s.turn = .producer e m ∧ u = producerStep e m s)) := by
  unfold step at h
  split at h
  · next ht =>
    obtain ⟨u, hu, rfl⟩ := advance_next h
    exact ⟨u, rfl, .inl ⟨ht, hu⟩⟩
  · next id ht =>
    obtain ⟨u, hu, rfl⟩ := advance_next h
    refine ⟨u, rfl, ?_⟩
    cases hs : s.self with
    | none =>
      rw [sequencerStep_idle (by simp [hs])] at hu
      cases hu
      exact .inr (.inr (.inl ⟨⟨id, ht⟩, rfl⟩))
    | some p =>
      obtain ⟨j, b⟩ := p
      obtain ⟨h1, h2⟩ := (s.self_eq_some j b).mp hs
      cases hp : b.seq with
      | none =>
        rw [sequencerStep_idle (by
          intro j' b' h'
          rw [hs] at h'
          obtain ⟨rfl, rfl⟩ := Prod.mk.injEq .. ▸ Option.some.inj h'
          exact hp)] at hu
        cases hu
        exact .inr (.inr (.inl ⟨⟨id, ht⟩, rfl⟩))
      | some pos =>
        rw [sequencerStep_row hs hp] at hu
        exact .inr (.inl ⟨j, b, pos, h1, h2, hp, hu⟩)
  · next e m ht =>
    obtain ⟨u, hu, rfl⟩ := advance_next h
    cases hu
    exact ⟨_, rfl, .inr (.inr (.inr ⟨e, m, ht, rfl⟩))⟩

/-- At a row of a command, `exec` of that command is the row. -/
theorem exec_row {s : State} {id : Nat} {b : Block} {pos : Position} {i : Instr}
    (h : s.atRow id b pos) (hi : pos.instr b.work.st = some i) :
    exec i s = rowStep pos id b s := by
  have hs : s.self = some (id, b) := (s.self_eq_some id b).mpr ⟨h.1, h.2.1⟩
  have hp := h.2.2
  cases pos <;> cases hi <;>
    simp [exec, execBegin, execEnd, execConfigure, execRead, execReadBuf, execGetSerIndex, hs, hp,
      rowStep]

end Sys2Proof.Machine
end

