-- ==== Sys2Proof/Laws/Rows.lean ====
section
/-! SUPPORT. Every row of every micro-step table, said once: the block it leaves, and what it does to the
block's engine; and the same for the host's steps. Later proofs cite these and unfold no row. -/

namespace Sys2Proof.Machine

/-- What a row does to its engine. -/
inductive Effect where
  /-- Nothing. -/
  | none
  /-- A `CTRL` write. -/
  | wr (f : CtrlField) (v : Bool)
  /-- A `SyncWait`. -/
  | sync (f : CtrlField)
  /-- A divisor write. -/
  | clk
  /-- A format write. -/
  | fmt
  /-- A data read, which clears the ready flag. -/
  | clr

/-- The effect of the row at a position (R110, R118, R127, R146, R149). -/
def Block.effectAt (b : Block) : Position → Effect
  | .begin .b4 => .wr .swrst true | .begin .b5 => .sync .swrst
  | .begin .b6 => .wr (.seren b.m) false | .begin .b7 => .sync (.seren b.m)
  | .begin .b8 => .wr (.cken b.c) false | .begin .b9 => .sync (.cken b.c)
  | .end_ .e1 => .wr (.seren b.m) false | .end_ .e2 => .sync (.seren b.m)
  | .end_ .e3 => .wr (.cken b.c) false | .end_ .e4 => .sync (.cken b.c)
  | .end_ .e5 => .wr .enable false | .end_ .e6 => .sync .enable
  | .configure .c2 => .wr (.seren b.m) false | .configure .c3 => .sync (.seren b.m)
  | .configure .c4 => .wr (.cken b.c) false | .configure .c5 => .sync (.cken b.c)
  | .configure .c6 => .wr .enable false | .configure .c7 => .sync .enable
  | .configure .c11 => .clk | .configure .c12 => .fmt
  | .configure .c13 => .wr .enable true | .configure .c14 => .sync .enable
  | .configure .c15 => .wr (.cken b.c) true | .configure .c16 => .sync (.cken b.c)
  | .configure .c17 => .wr (.seren b.m) true | .configure .c18 => .sync (.seren b.m)
  | .read .rd2 => .clr | .readBuf .q4 => .clr
  | _ => .none

/-- `en` is what the effect makes of block `b`'s engine in state `s`. -/
def Effect.holds (s : State) (b : Block) (en : Engine) : Effect → Prop
  | .none => en = s.engine b.e
  | .wr f v => en = (s.engine b.e).wrCtrl f v
  | .sync f => en = (s.engine b.e).sync f s.answer.engine s.answer.sync
  | .clk => en = s.engine b.e ∨ ∃ v, en = {s.engine b.e with clk := (s.engine b.e).clk.set b.c v}
  | .fmt => ∃ v, en = {s.engine b.e with fmt := (s.engine b.e).fmt.set b.m v}
  | .clr => en = {s.engine b.e with rxrdy := (s.engine b.e).rxrdy.set b.m false}

/-- The calculator gave a triple. -/
def CalcResult.isOk : CalcResult → Bool
  | .ok _ _ _ => true
  | .fail _ => false

/-- The block after the row at a position. -/
def rowBlock (s : State) (b : Block) : Position → Block
  | .begin .b0 => if b.lifecycle ≠ .uninit then b.finish .state else b.goto (.begin .b1)
  | .begin .b1 => if s.owner b.e ≠ none then b.finish .bind else b.goto (.begin .b2)
  | .begin .b2 => s.answer.call.pick (b.goto (.begin .b3)) (b.finish .bind)
  | .begin .b3 => s.answer.call.pick (b.goto (.begin .b4)) (b.goto (.begin .b3f))
  | .begin .b3f => b.finish .bind
  | .begin .b4 => b.goto (.begin .b5)
  | .begin .b5 => s.answer.sync.pick (b.goto (.begin .b6)) b.fatal
  | .begin .b6 => b.goto (.begin .b7)
  | .begin .b7 => s.answer.sync.pick (b.goto (.begin .b8)) b.fatal
  | .begin .b8 => b.goto (.begin .b9)
  | .begin .b9 => s.answer.sync.pick (b.goto (.begin .b10)) b.fatal
  | .begin .b10 => b.commitBegin
  | .end_ .e0 => if b.lifecycle = .uninit then b.finish .none else b.clearErr.goto (.end_ .e1)
  | .end_ .e1 => b.goto (.end_ .e2)
  | .end_ .e2 => s.answer.sync.pick (b.goto (.end_ .e3)) (b.noteTimeout.goto (.end_ .e3))
  | .end_ .e3 => b.goto (.end_ .e4)
  | .end_ .e4 => s.answer.sync.pick (b.goto (.end_ .e5)) (b.noteTimeout.goto (.end_ .e5))
  | .end_ .e5 => b.goto (.end_ .e6)
  | .end_ .e6 => s.answer.sync.pick (b.goto (.end_ .e7)) (b.noteTimeout.goto (.end_ .e7))
  | .end_ .e7 => b.goto (.end_ .e8)
  | .end_ .e8 => b.goto (.end_ .e9)
  | .end_ .e9 => b.commitEnd
  | .configure .c0 => if b.lifecycle = .idle ∨ b.lifecycle = .running then b.latchRate.goto (.configure .c1)
       else b.finish .state
  | .configure .c1 => if CalcResult.isOk (calculate s.params b.work.rate.toNat) then (b.setCalc (calculate s.params b.work.rate.toNat)).goto (.configure .c2) else (b.setCalc (calculate s.params b.work.rate.toNat)).finish .config
  | .configure .c2 => b.goto (.configure .c3)
  | .configure .c3 => s.answer.sync.pick (b.goto (.configure .c4)) b.fatal
  | .configure .c4 => b.goto (.configure .c5)
  | .configure .c5 => s.answer.sync.pick (b.goto (.configure .c6)) b.fatal
  | .configure .c6 => b.goto (.configure .c7)
  | .configure .c7 => s.answer.sync.pick (b.goto (.configure .c8)) b.fatal
  | .configure .c8 => if CalcResult.isOk b.work.r then (if b.k.toNat < s.params.gclkCount ∧ s.answer.call = .ok then b.goto (.configure .c9) else b.fatal) else b
  | .configure .c9 => (if b.k.toNat < s.params.gclkCount ∧ s.answer.call = .ok then b.goto (.configure .c10) else b.fatal)
  | .configure .c10 => (if b.k.toNat < s.params.gclkCount ∧ s.answer.call = .ok then b.goto (.configure .c11) else b.fatal)
  | .configure .c11 => if CalcResult.isOk b.work.r then b.goto (.configure .c12) else b
  | .configure .c12 => b.goto (.configure .c13)
  | .configure .c13 => b.goto (.configure .c14)
  | .configure .c14 => s.answer.sync.pick (b.goto (.configure .c15)) b.fatal
  | .configure .c15 => b.goto (.configure .c16)
  | .configure .c16 => s.answer.sync.pick (b.goto (.configure .c17)) b.fatal
  | .configure .c17 => b.goto (.configure .c18)
  | .configure .c18 => s.answer.sync.pick (b.goto (.configure .c19)) b.fatal
  | .configure .c19 => match b.work.r with | .ok g q f => b.commitConfigure g q f b.work.st | .fail _ => b
  | .read .rd0 => if readRefused s b then b.finish .state else b.goto (.read .rd1)
  | .read .rd1 => if s.ready b.e b.m then b.goto (.read .rd2) else b
  | .read .rd2 => b.takeWord (s.dataReg b.e b.m)
  | .readBuf .q0 => if b.badBufArgs then b.latchBufArgs.finish .arg else b.latchBufArgs.goto (.readBuf .q1)
  | .readBuf .q1 => if readRefused s b then b.finish .state else b.goto (.readBuf .q2)
  | .readBuf .q2 => (b.setIndex 0).goto (.readBuf .q3)
  | .readBuf .q3 => if s.ready b.e b.m then b.goto (.readBuf .q4) else b
  | .readBuf .q4 => ((b.setReadWord (s.dataReg b.e b.m)).goto (.readBuf .q5))
  | .readBuf .q5 => if s.memOk b.storeAddr then b.goto (.readBuf .q6) else b
  | .readBuf .q6 => (if ((b.work.i + 1 : Nat) : Int) < b.work.n then
        (b.setIndex (b.work.i + 1)).goto (.readBuf .q3)
       else (b.setIndex (b.work.i + 1)).finish .none)
  | .getSerIndex => ({ b with resWord := BitVec.ofNat 32 b.m.toNat }).finish .none
  | .illegal => b.finish .illegal

theorem CallOutcome.pick_eq_ite {α} (o : CallOutcome) (x y : α) : o.pick x y = if o = .ok then x else y := by cases o <;> rfl

theorem State.block?_eq_ite {s : State} {id b} (hb : s.block? id = some b) (j) : s.block? j = if j = id then some b else s.block? j := by
  split <;> simp_all

/-- What a row leaves: the parameters, the fresh identifier, every other block and every other engine as
they were. -/
theorem rowStep_view {s u : State} {id b pos} (hb : s.block? id = some b) (h : rowStep pos id b s = .next u) :
   u.params = s.params ∧ u.nextId = s.nextId ∧ (∀ j, u.block? j = if j = id then some (rowBlock s b pos) else s.block? j) ∧
   ∃ en, (b.effectAt pos).holds s b en ∧ (∀ j, u.engine j = if j = b.e then en else s.engine j) := by
  cases pos with
  | begin row =>
    cases h
    cases row <;> simp only [beginRow, State.callRow, State.syncRow, State.ctrlRow, rowBlock, Block.effectAt,
      Effect.holds]
    case b2 =>
      have : s.callOutcome (.pinMux b.clockPin (.clk b.e b.c)) = s.answer.call := by simp [State.callOutcome, CallOp.forcedFail]
      rw [this]
      cases s.answer.call <;> refine ⟨by simp, by simp, fun j => by simp [State.block?_setBlock], _, rfl, fun j => by simp; rintro rfl; rfl⟩
    case b3 =>
      have : ∀ p q, s.callOutcome (.pinMux p q) = s.answer.call := by simp [State.callOutcome, CallOp.forcedFail]
      rw [this]
      refine ⟨by simp, by simp, fun j => by simp [State.block?_setBlock], _, rfl, fun j => by simp; rintro rfl; rfl⟩
    all_goals
      refine ⟨?_, ?_, fun j => ?_, _, rfl, fun j => ?_⟩
      · first | rfl | (split <;> rfl) | simp
      · first | rfl | (split <;> rfl) | simp
      · first | (simp [State.block?_setBlock, State.syncOutcome, State.own]; done) | (split <;> simp [State.block?_setBlock, State.own])
      · first | (simp [State.engine_afterSync,State.syncOutcome]; done) | (simp; rintro rfl; rfl) | (split <;> simp <;> rintro rfl <;> rfl)
  | end_ row =>
    cases h
    cases row <;> simp only [endRow, State.callRow, State.syncRow, State.ctrlRow, rowBlock, Block.effectAt,
      Effect.holds]
    case e7 | e8 =>
      refine ⟨by simp, by simp, fun j => by cases s.callOutcome _ <;> simp [State.block?_setBlock], _, rfl, fun j => by simp; rintro rfl; rfl⟩
    all_goals
      refine ⟨?_, ?_, fun j => ?_, _, rfl, fun j => ?_⟩
      · first | rfl | (split <;> rfl) | simp
      · first | rfl | (split <;> rfl) | simp
      · first | (simp [State.block?_setBlock, State.syncOutcome, State.own]; done) | (split <;> simp [State.block?_setBlock, State.own])
      · first | (simp [State.engine_afterSync,State.syncOutcome]; done) | (simp; rintro rfl; rfl) | (split <;> simp <;> rintro rfl <;> rfl)
  | getSerIndex =>
    cases h
    exact ⟨rfl, rfl, fun j => by simp [getSerIndexRow, rowBlock, State.block?_setBlock], _, rfl, fun j => by simp [getSerIndexRow]; rintro rfl; rfl⟩
  | illegal =>
    cases h
    exact ⟨rfl, rfl, fun j => by simp [illegalRow, rowBlock, State.block?_setBlock], _, rfl, fun j => by simp [illegalRow]; rintro rfl; rfl⟩
  | read row =>
    cases row <;> simp only [rowStep, readRow, State.pollRow] at h
    case rd1 =>
      split at h
      · next hr =>
        split at h <;> cases h
        exact ⟨by simp, by simp, fun j => by simp [State.block?_setBlock, rowBlock, hr], _, rfl, fun j => by simp; rintro rfl; rfl⟩
      · next hr =>
        cases h
        exact ⟨by simp, by simp, fun j => by simp [rowBlock, hr]; exact (fun hj => hj ▸ hb), _, rfl, fun j => by simp; rintro rfl; rfl⟩
    · cases h
      exact ⟨by simp, by simp, fun j => by simp [State.block?_setBlock, rowBlock], _, rfl, fun j => by simp; rintro rfl; rfl⟩
    · cases h
      exact ⟨by rfl, by rfl, fun j => by simp [State.block?_setBlock, rowBlock], _, rfl, fun j => by simp [State.rdData, State.engine_setEngine]⟩
  | readBuf row =>
    cases row <;> simp only [rowStep, readBufRow, State.pollRow, storeRow] at h
    case q3 =>
      split at h
      · next hr =>
        split at h <;> cases h
        exact ⟨by simp, by simp, fun j => by simp [State.block?_setBlock, rowBlock, hr], _, rfl, fun j => by simp; rintro rfl; rfl⟩
      · next hr =>
        cases h
        exact ⟨by simp, by simp, fun j => by simp [rowBlock, hr]; exact (fun hj => hj ▸ hb), _, rfl, fun j => by simp; rintro rfl; rfl⟩
    case q2 =>
      split at h <;> cases h
      exact ⟨by simp, by simp, fun j => by simp [State.block?_setBlock, rowBlock], _, rfl, fun j => by simp; rintro rfl; rfl⟩
    case q5 =>
      cases h
      split
      · next hm => exact ⟨rfl, rfl, fun j => by simp [State.block?_setBlock, rowBlock, hm], _, rfl, fun j => by simp; rintro rfl; rfl⟩
      · next hm => exact ⟨rfl, rfl, fun j => by simp [rowBlock, hm]; exact (fun hj => hj ▸ hb), _, rfl, fun j => by simp; rintro rfl; rfl⟩
    case q4 =>
      cases h
      exact ⟨by rfl, by rfl, fun j => by simp [State.block?_setBlock, rowBlock], _, rfl, fun j => by simp [State.rdData, State.engine_setEngine]⟩
    all_goals
      cases h
      exact ⟨by simp, by simp, fun j => by simp [State.block?_setBlock, rowBlock], _, rfl, fun j => by simp; rintro rfl; rfl⟩
  | configure row =>
    simp only [rowStep] at h
    cases row <;> simp only [configureRow] at h
    case c1 =>
      cases h
      simp only [calcRow, rowBlock]
      split
      · next hc => exact ⟨by simp, by simp, fun j => by simp [hc, State.block?_setBlock, CalcResult.isOk], _, rfl, fun j => by simp; rintro rfl; rfl⟩
      · next hc => exact ⟨by simp, by simp, fun j => by simp [hc, State.block?_setBlock, CalcResult.isOk], _, rfl, fun j => by simp; rintro rfl; rfl⟩
    case c8 =>
      split at h
      · next hr =>
        cases h
        simp only [State.callRow]
        refine ⟨by simp, by simp, fun j => ?_, _, rfl, fun j => by simp; rintro rfl; rfl⟩
        simp only [State.block?_setBlock, rowBlock, hr, CalcResult.isOk, State.callOutcome, CallOp.forcedFail]
        by_cases hk : s.params.gclkCount ≤ b.k.toNat <;> simp [hk, CallOutcome.pick_eq_ite]
        · simp [Nat.not_lt.mpr hk]
        · cases s.answer.call <;> simp <;> simp_all
      · next hr =>
        cases h
        exact ⟨rfl, rfl, fun j => by simp [rowBlock, hr, CalcResult.isOk]; exact (fun hj => hj ▸ hb), _, rfl, fun j => by simp; rintro rfl; rfl⟩
    case c9 | c10 =>
        cases h
        simp only [State.callRow]
        refine ⟨by simp, by simp, fun j => ?_, _, rfl, fun j => by simp; rintro rfl; rfl⟩
        simp only [State.block?_setBlock, rowBlock, CalcResult.isOk, State.callOutcome, CallOp.forcedFail]
        by_cases hk : s.params.gclkCount ≤ b.k.toNat <;> simp [hk, CallOutcome.pick_eq_ite]
        · simp [Nat.not_lt.mpr hk]
        · cases s.answer.call <;> simp <;> simp_all
    case c11 =>
      split at h
      · next hr =>
        unfold clkRow at h; split at h <;> cases h
        exact ⟨rfl, rfl, fun j => by simp [State.block?_setBlock, rowBlock, hr, CalcResult.isOk], _, .inr ⟨_, rfl⟩, fun j => by simp [State.wrClk, State.engine_setEngine]; rfl⟩
      · next hr =>
        cases h
        exact ⟨rfl, rfl, fun j => by simp [rowBlock, hr, CalcResult.isOk]; exact (fun hj => hj ▸ hb), _, .inl rfl, fun j => by simp; rintro rfl; rfl⟩
    case c12 =>
        unfold fmtRow at h; split at h <;> cases h
        exact ⟨rfl, rfl, fun j => by simp [State.block?_setBlock, rowBlock], _, ⟨_, rfl⟩, fun j => by simp [State.wrFmt, State.engine_setEngine]; rfl⟩
    case c19 =>
      split at h
      · next hr =>
        cases h
        exact ⟨rfl, rfl, fun j => by simp [State.block?_setBlock, rowBlock, hr], _, rfl, fun j => by simp; rintro rfl; rfl⟩
      · next hr =>
        cases h
        exact ⟨rfl, rfl, fun j => by simp [rowBlock, hr]; exact (fun hj => hj ▸ hb), _, rfl, fun j => by simp; rintro rfl; rfl⟩
    all_goals
      cases h
      refine ⟨?_, ?_, fun j => ?_, _, rfl, fun j => ?_⟩
      · first | rfl | simp
      · first | rfl | simp
      · simp [State.block?_setBlock, State.syncOutcome, rowBlock, State.syncRow, State.ctrlRow]
      · first | (simp [State.engine_afterSync,State.syncOutcome, State.syncRow, State.ctrlRow]; done) | (simp; rintro rfl; rfl)

/-- A row that neither writes an engine register, waits for one nor reads data leaves the whole engine as it
was: the checks, the collaborator calls and the commits among them. -/
theorem rowStep_engine_of_none {s u : State} {id b pos} (hb : s.block? id = some b)
    (h : rowStep pos id b s = .next u) (hn : b.effectAt pos = .none) :
    u.engine b.e = s.engine b.e := by
  obtain ⟨-, -, -, en, hen, he⟩ := rowStep_view hb h
  rw [he, if_pos rfl]
  rw [hn] at hen
  exact hen

/-- No row changes what construction bound (R22). -/
theorem rowBlock_binding (s : State) (b : Block) (pos : Position) : (rowBlock s b pos).e = b.e ∧ (rowBlock s b pos).c = b.c ∧ (rowBlock s b pos).m = b.m ∧ (rowBlock s b pos).k = b.k := by
  cases pos <;> (try rename_i row; cases row) <;> simp only [rowBlock] <;> (try split) <;> (try split) <;> (try cases s.answer.sync) <;> (try cases s.answer.call) <;> exact ⟨rfl,rfl,rfl,rfl⟩

/-- What a host step leaves: it changes no engine and no owner, and at most one block: a port write to an
existing one, or a constructed one. -/
theorem hostStep_view {s u : State} (h : hostStep s = .next u) : u.params = s.params ∧ (∀ e, u.engine e = s.engine e) ∧ (∀ e, u.owner e = s.owner e) ∧
   ((∀ j, u.block? j = s.block? j) ∨
    (∃ id b b', s.block? id = some b ∧ b'.e = b.e ∧ b'.c = b.c ∧ b'.m = b.m ∧ b'.k = b.k ∧ b'.lifecycle = b.lifecycle ∧ b'.cfgValid = b.cfgValid ∧ b'.cfgG = b.cfgG ∧ b'.cfgS = b.cfgS ∧ b'.cfgF = b.cfgF ∧ (b'.seq = b.seq ∧ b'.work = b.work ∨ b.seq = none ∧ ∃ d, b'.seq = some (Position.first d)) ∧ ∀ j, u.block? j = if j = id then some b' else s.block? j) ∨
    (∃ b', b'.lifecycle = .uninit ∧ b'.cfgValid = false ∧ b'.cfgG = 0 ∧ b'.cfgS = 0 ∧ b'.cfgF = 0 ∧ b'.seq = none ∧ ∀ j, u.block? j = if j = s.nextId then some b' else s.block? j)) := by
  unfold hostStep at h
  split at h
  · cases h; exact ⟨rfl, fun _ => rfl, fun _ => rfl, .inl fun _ => rfl⟩
  · next port width off v rest hp =>
    simp only [State.portWrite] at h
    split at h
    · cases h
    · next b hb =>
      split at h
      · cases h
      · cases h
      · next r hr =>
        split at h
        · cases h
        · next b' hb' =>
          cases h
          have hb0 : s.block? port = some b := hb
          refine ⟨rfl, fun _ => rfl, fun _ => rfl, .inr (.inl ⟨port, b, b', hb0, ?_, ?_,?_,?_,?_,?_,?_,?_,?_,?_, fun j => State.block?_setBlock _ _ _ _⟩)⟩
          all_goals
            cases r <;> simp only [Block.writePort] at hb' <;> (try split at hb') <;> cases hb' <;> first | rfl | exact .inl ⟨rfl,rfl⟩ | skip
          next hbu => exact .inr ⟨by simpa [Block.busy] using hbu, _, rfl⟩
  · simp only [State.portRead] at h
    split at h
    · cases h
    · split at h <;> cases h
      exact ⟨rfl, fun _ => rfl, fun _ => rfl, .inl fun _ => rfl⟩
  · simp only [State.waitStep] at h
    split at h
    · cases h
    · split at h <;> cases h <;> exact ⟨rfl, fun _ => rfl, fun _ => rfl, .inl fun _ => rfl⟩
  · obtain ⟨-, rfl⟩ := State.hostLoad_next h
    exact ⟨rfl, fun _ => rfl, fun _ => rfl, .inl fun _ => rfl⟩
  · obtain ⟨-, rfl⟩ := State.hostStore_next h
    exact ⟨rfl, fun _ => rfl, fun _ => rfl, .inl fun _ => rfl⟩
  · obtain ⟨-, rfl⟩ := State.hostLoad_next h
    exact ⟨rfl, fun _ => rfl, fun _ => rfl, .inl fun _ => rfl⟩
  · obtain ⟨-, rfl⟩ := State.hostLoad_next h
    exact ⟨rfl, fun _ => rfl, fun _ => rfl, .inl fun _ => rfl⟩
  · obtain ⟨-, rfl⟩ := State.hostStore_next h
    exact ⟨rfl, fun _ => rfl, fun _ => rfl, .inl fun _ => rfl⟩
  · obtain ⟨-, rfl⟩ := State.hostStore_next h
    exact ⟨rfl, fun _ => rfl, fun _ => rfl, .inl fun _ => rfl⟩
  · next cp dp k rest hp =>
    cases h
    refine ⟨rfl, fun _ => rfl, fun _ => rfl, .inr (.inr ⟨_, ?_, ?_, ?_, ?_, ?_, ?_, fun j => Table.at?_put _ _ _ _⟩)⟩ <;> rfl

end Sys2Proof.Machine
end

