-- ==== Sys2Proof/Laws/Ends.lean ====
section
/-! SUPPORT. The ends of a run (R199): no two of final, fault, stuck and hang hold of one state. -/

namespace Sys2Proof.Machine

/-- A host with no step raises no fault. -/
theorem hostStep_of_not_enabled {s : State} (h : s.enabled .host = false) : hostStep s = .next s := by
  simp only [State.enabled, State.hostEnabled] at h
  unfold hostStep
  split at h
  · next hp => simp [hp]
  · next port rest hp =>
    split at h
    · next b hb => simp_all [State.waitStep]
    · cases h
  · cases h

/-- A row that its sequencer cannot take raises no fault. -/
theorem rowStep_of_not_enabled {s : State} {pos : Position} {id : Nat} {b : Block} {f : Fault}
    (h : s.positionEnabled b pos = false) : rowStep pos id b s ≠ .fault f := by
  cases pos with
  | begin row => cases row <;> simp [State.positionEnabled] at h
  | end_ row => cases row <;> simp [State.positionEnabled] at h
  | configure row =>
    cases row <;> simp only [State.positionEnabled] at h <;>
      first
        | cases h
        | (split at h
           · cases h
           · next hr => simp [rowStep, configureRow, hr])
  | read row => cases row <;> simp_all [State.positionEnabled, rowStep, readRow, State.pollRow]
  | readBuf row => cases row <;> simp_all [State.positionEnabled, rowStep, readBufRow, State.pollRow]
  | getSerIndex => simp [State.positionEnabled] at h
  | illegal => simp [State.positionEnabled] at h

theorem advance_fault {o : Host.Outcome State Fault Refusal} {f : Fault} (h : advance o = .fault f) :
    o = .fault f := by
  cases o <;> cases h; rfl

/-- The agent whose step is a fault had a step. -/
theorem enabled_of_fault {s : State} {f : Fault} (h : step s = .fault f) :
    s.enabled s.turn = true ∧ ∀ e m, s.turn ≠ .producer e m := by
  unfold step at h
  split at h
  · next ht =>
    refine ⟨?_, by simp [ht]⟩
    rw [ht]
    by_contra hn
    rw [hostStep_of_not_enabled (by simpa using hn)] at h
    cases advance_fault h
  · next id ht =>
    refine ⟨?_, by simp [ht]⟩
    have hf := advance_fault h
    rw [ht]
    cases hs : s.self with
    | none => rw [sequencerStep_idle (by simp [hs])] at hf; cases hf
    | some p =>
      obtain ⟨j, b⟩ := p
      obtain ⟨h1, h2⟩ := (s.self_eq_some j b).mp hs
      obtain rfl : id = j := Agent.sequencer.inj (ht.symm.trans h1)
      cases hp : b.seq with
      | none =>
        rw [sequencerStep_idle (by
          intro j' b' h'
          rw [hs] at h'
          obtain ⟨rfl, rfl⟩ := Prod.mk.injEq .. ▸ Option.some.inj h'
          exact hp)] at hf
        cases hf
      | some pos =>
        rw [sequencerStep_row hs hp] at hf
        by_contra hn
        exact rowStep_of_not_enabled (by simpa [State.enabled, State.sequencerEnabled, h2, hp] using hn) hf
  · cases advance_fault h

/-- A block at a poll row or stuck at Q5 is executing a command. -/
theorem busy_of_holds_or_stuck {s : State} {id : Nat}
    (h : s.holdsAtPoll id = true ∨ s.stuckAtStore id = true) :
    ∃ b, s.block? id = some b ∧ b.seq ≠ none := by
  simp only [State.holdsAtPoll, State.stuckAtStore] at h
  cases hb : s.block? id with
  | none => simp [hb] at h
  | some b =>
    refine ⟨b, rfl, fun hn => ?_⟩
    simp [hb, hn] at h

/-- A run ends in at most one way (R199). -/
theorem State.ends_exclusive (s : State) :
    ¬ (s.final ∧ s.faults) ∧ ¬ (s.final ∧ s.stuck) ∧ ¬ (s.final ∧ s.hang) ∧
      ¬ (s.faults ∧ s.stuck) ∧ ¬ (s.faults ∧ s.hang) ∧ ¬ (s.stuck ∧ s.hang) := by
  have hfe : s.faults → s.enabled .host = true ∨ ∃ id, s.enabled (.sequencer id) = true := by
    rintro ⟨f, hf⟩
    obtain ⟨he, hp⟩ := enabled_of_fault hf
    cases ht : s.turn with
    | host => exact .inl (ht ▸ he)
    | sequencer id => exact .inr ⟨id, ht ▸ he⟩
    | producer e m => exact absurd ht (hp e m)
  have hnf : s.final → s.enabled .host = false ∧ ∀ id, s.enabled (.sequencer id) = false := by
    rintro ⟨hp, hq⟩
    refine ⟨by simp [State.enabled, State.hostEnabled, hp], fun id => ?_⟩
    simp only [State.enabled, State.sequencerEnabled]
    cases hb : s.block? id with
    | none => rfl
    | some b => simp [hq id b hb]
  have hb : s.final → ∀ id, ¬ (s.holdsAtPoll id = true ∨ s.stuckAtStore id = true) := by
    rintro ⟨_, hq⟩ id h
    obtain ⟨b, h1, h2⟩ := busy_of_holds_or_stuck h
    exact h2 (hq id b h1)
  refine ⟨?_, ?_, ?_, ?_, ?_, ?_⟩
  · rintro ⟨h1, h2⟩
    obtain ⟨hh, hs⟩ := hnf h1
    rcases hfe h2 with h | ⟨id, h⟩
    · simp [hh] at h
    · simp [hs id] at h
  · rintro ⟨h1, ⟨id, h⟩, _⟩; exact hb h1 id (.inr h)
  · rintro ⟨h1, ⟨id, h⟩, _⟩; exact hb h1 id (.inl h)
  · rintro ⟨h1, _, hh, hs⟩
    rcases hfe h1 with h | ⟨id, h⟩
    · simp [hh] at h
    · simp [hs id] at h
  · rintro ⟨h1, _, _, ha⟩
    rcases hfe h1 with h | ⟨id, h⟩
    · simp [ha] at h
    · simp [ha] at h
  · rintro ⟨⟨⟨id, h⟩, _⟩, _, hn, _⟩; simp [hn id] at h

end Sys2Proof.Machine
end

