-- ==== Sys2Proof/Laws/PerInstr.lean ====
section
/-! SUPPORT. A statement about each command as syntax, with one lemma per constructor: the word it is
written with carries exactly its own fields (R75, R77). -/

namespace Sys2Proof.Laws.CarriesFields

/-- The fields read back from a command's word are the command's. -/
def Statement (i : Instr) : Prop := fieldsOf (encode i) = i.commandFields

theorem begin : Statement .begin := by unfold Statement; decide

theorem end_ : Statement .end_ := by unfold Statement; decide

theorem configure (stereo : Bool) : Statement (.configure stereo) := by
  unfold Statement; cases stereo <;> decide

theorem read : Statement .read := by unfold Statement; decide

theorem readBuf : Statement .readBuf := by unfold Statement; decide

theorem getSerIndex : Statement .getSerIndex := by unfold Statement; decide

end Sys2Proof.Laws.CarriesFields
end

