-- ==== Sys2Proof/Tests/Slice0.lean ====
section
/-! SUPPORT. The model's own tests: well-formedness, decoding, one or two steps' results per command from
95_test_vectors.md, and for every statement with hypotheses a named state that meets them. -/

namespace Sys2Proof.Tests

open Sys2Proof Sys2Proof.Machine

/-! ## Small states -/

/-- A working-register file in which nothing stands out. -/
def work0 : Work := ⟨.fail .noPair, 0, 0, 0, .none, false, 0, 0⟩

/-- A free block on engine 0, clock unit 0, serializer 0, generator 3. -/
def block0 : Block where
  clockPin := 10
  dataPin := 11
  k := 3
  e := 0
  c := .u0
  m := .u0
  portBase := 0x40000000
  lifecycle := .uninit
  cfgValid := false
  cfgG := 0
  cfgS := 0
  cfgF := 0
  chMode := .mono
  seq := none
  cmd := 0
  argRate := 0
  argCount := 0
  argBuf := 0
  resWord := 0
  result := false
  errCode := .none
  work := work0

/-- `block0` in `IDLE` after a BEGIN. -/
def idle0 : Block := { block0 with lifecycle := .idle, result := true }

/-- `block0` in `RUNNING` after `CONFIGURE 16000, mono` under P0. -/
def running0 : Block :=
  { block0 with
    lifecycle := .running, cfgValid := true, cfgG := 48, cfgS := 1, cfgF := 1024000, result := true }

/-- `block0` at `INDETERMINATE`. -/
def lost0 : Block := { block0 with lifecycle := .indeterminate }

def engine0 : Engine :=
  ⟨CtrlFields.all false, CtrlFields.all false, CtrlFields.all none, ⟨0, 0⟩,
    ⟨⟨.other, 0, 0, .other, .msbFirst, .mono, .u0⟩, ⟨.other, 0, 0, .other, .msbFirst, .mono, .u0⟩⟩,
    ⟨false, false⟩, ⟨0, 0⟩⟩

/-- An answer of `ok` to everything; the turn goes to `a`. -/
def okAnswer (a : Agent) (w : Word := 0) : Answer :=
  ⟨.ok, .ok, w, engine0, ⟨.other, 0, false⟩, none, a⟩

/-- An answer whose `SyncWait` times out. -/
def timeoutAnswer (a : Agent) : Answer := { okAnswer a with sync := .timeout }

/-- An answer whose `Call` fails. -/
def failAnswer (a : Agent) : Answer := { okAnswer a with call := .fail }

/-- One block `b` with `instanceId` 0, engine 0 holding `en` and owned by `o`, profile P0, 4096 bytes of
host memory at `0x20000000`; the turn is block 0's sequencer's. -/
def one (b : Block) (en : Engine := engine0) (o : Option Nat := some 0) : State where
  params := Params.p0
  blocks := [(0, b)]
  nextId := 1
  engines := [(0, en)]
  gens := [(3, ⟨.other, 0, false⟩)]
  routes := [(0, ⟨none, none⟩)]
  owners := [(0, o)]
  buf := []
  admitted := [⟨0x20000000, 0x1000⟩]
  program := []
  received := []
  trace := []
  turn := .sequencer 0
  script := [okAnswer .host]
  drawn := 0

/-- Block 0 stands at a row. -/
def row (b : Block) (pos : Position) (en : Engine := engine0) (o : Option Nat := some 0) : State :=
  one { b with seq := some pos } en o

/-- The host has the turn and one primitive left. -/
def hostDoes (b : Block) (op : HostOp) : State :=
  { one b with turn := .host, program := [op] }

/-- A part of the next state, where there is one. -/
def part {α : Type} (o : Host.Outcome State Fault Refusal) (f : State → α) : Option α :=
  match o with
  | .next t => some (f t)
  | .fault _ => none
  | .refused _ => none

/-- The fault, where there is one. -/
def faultOf (o : Host.Outcome State Fault Refusal) : Option Fault :=
  match o with
  | .next _ => none
  | .fault f => some f
  | .refused _ => none

/-- Block 0's `STATUS`. -/
def status0 (s : State) : Option Word := (s.block? 0).map Block.status

/-- Block 0's position. -/
def seq0 (s : State) : Option (Option Position) := (s.block? 0).map Block.seq

/-- A block at a row, with the turn: every statement about a row has such a state. -/
theorem row_atRow (b : Block) (pos : Position) (en : Engine) (o : Option Nat) :
    (row b pos en o).atRow 0 { b with seq := some pos } pos := ⟨rfl, rfl, rfl⟩

/-! ## Well-formedness: one ill-formed term per check -/

theorem test_wf_refuses_reserved : (⟨0x01, false, 1⟩ : CommandFields).wf = false := by decide
theorem test_wf_refuses_stereo_on_begin : (⟨0x01, true, 0⟩ : CommandFields).wf = false := by decide
theorem test_wf_refuses_opcode_0 : (⟨0x00, false, 0⟩ : CommandFields).wf = false := by decide
theorem test_wf_refuses_opcode_7 : (⟨0x07, false, 0⟩ : CommandFields).wf = false := by decide
theorem test_wf_accepts_stereo_configure : (⟨0x03, true, 0⟩ : CommandFields).wf = true := by decide
theorem test_line_refuses_negative_rate : (Line.configure (-1) false).wf = false := by decide
theorem test_line_refuses_large_count : (Line.readBuf 0 (2 ^ 31)).wf = false := by decide
theorem test_line_accepts_negative_count : (Line.readBuf 0 (-2 ^ 31)).wf = true := by decide
theorem test_line_refuses_large_value : (Line.wr 0 (2 ^ 32)).wf = false := by decide
theorem test_line_refuses_offset_64 : (Line.rd 64).wf = false := by decide
theorem test_line_refuses_large_address : (Line.mrd (2 ^ 32)).wf = false := by decide
theorem test_params_refuse_zero_osr : ({ Params.p0 with osr := 0 } : Params).legal = false := by decide
theorem test_params_refuse_engine_out_of_range :
    ({ Params.p0 with unitDefault := ⟨1, .u0, .u0⟩ } : Params).legal = false := by decide
theorem test_p0_legal : Params.p0.legal = true := by decide

/-! ## Decoding (95_test_vectors.md 2.1); a word's bits as R75 lays them out: RSV, S, OPCODE -/

theorem test_decode_begin : decode (0b00000000000000000000000_0_00000001 : Word) = .ok .begin := by
  decide
theorem test_decode_end : decode (0b00000000000000000000000_0_00000010 : Word) = .ok .end_ := by
  decide
theorem test_decode_configure_stereo :
    decode (0b00000000000000000000000_1_00000011 : Word) = .ok (.configure true) := by decide
theorem test_decode_read : decode (0b00000000000000000000000_0_00000100 : Word) = .ok .read := by
  decide
theorem test_decode_read_buf : decode (0b00000000000000000000000_0_00000101 : Word) = .ok .readBuf := by
  decide
theorem test_decode_get_ser_index :
    decode (0b00000000000000000000000_0_00000110 : Word) = .ok .getSerIndex := by decide
theorem test_decode_illegal_ff : decode 0x000000FF = .error .unassignedOpcode := by decide
theorem test_decode_stereo_read : decode 0x00000104 = .error .stereoNotAllowed := by decide
theorem test_decode_rsv_bit_9 : decode 0x00000203 = .error .reservedBits := by decide
theorem test_table_word : decodeTableWord 32 0x103 = some (.configure true) := by decide
theorem test_table_word_too_wide : decodeTableWord 33 0x100000001 = none := by decide

/-! ## Each command's step from reset -/

theorem test_begin_runs_from_reset :
    part (step (State.reset.withFetchWord 32 1)) seq0 = some (some (some (.begin .b1))) := by decide
theorem test_get_ser_index_runs_from_reset :
    part (exec .getSerIndex (State.reset.withFetchWord 32 6)) seq0 = some (some none) := by decide

/-! ## STATUS (R27; vectors B-1, B-3, C-4, C-12) -/

theorem test_status_idle : idle0.status = 0x00000102 := by decide
theorem test_status_begin_refused_running :
    ({ running0 with errCode := .state, result := false } : Block).status = 0x00000A50 := by decide
theorem test_status_stereo_running : ({ running0 with chMode := .stereo } : Block).status = 0x00000E02 := by
  decide
theorem test_status_fatal_keeps_chmode :
    ({ running0 with chMode := .stereo } : Block).fatal.status = 0x00000730 := by decide

/-! ## The calculator (95_test_vectors.md 2.2) -/

theorem test_calc_16000 : calculate Params.p0 16000 = .ok 48 1 1024000 := by decide +kernel
theorem test_calc_largest_g : calculate Params.p0 300 = .ok 160 16 19200 := by decide +kernel
theorem test_calc_sdiv_max : calculate Params.p0 100 = .ok 240 32 6400 := by decide +kernel
theorem test_calc_zero : calculate Params.p0 0 = .fail .zeroRate := by decide
theorem test_calc_too_fast : calculate Params.p0 48001 = .fail .tooFast := by decide
theorem test_calc_no_wrap : calculate Params.p0 67124864 = .fail .tooFast := by decide
theorem test_calc_not_exact : calculate Params.p0 44100 = .fail .notExact := by decide
theorem test_calc_no_pair : calculate Params.p0 75 = .fail .noPair := by decide +kernel
theorem test_calc_prime :
    calculate { Params.p0 with fRef := 49344 } 1 = .fail .noPair := by decide +kernel
theorem test_calc_smallest :
    calculate { Params.p0 with osr := 1, fRef := 1, fSckMax := 1 } 1 = .ok 1 1 1 := by decide +kernel

/-! ## One step of each command (95_test_vectors.md 2.3 to 2.8) -/

/-- B-4. -/
theorem test_begin_in_indeterminate :
    part (exec .begin (row lost0 (.begin .b0))) status0 = some (some 0x00000350) := by decide
/-- B-6. -/
theorem test_begin_clock_pin_fails :
    part (exec .begin { row block0 (.begin .b2) with script := [failAnswer .host] })
      (fun t => (status0 t, t.owner 0, t.trace)) =
    some (some 0x00000020, none,
      [.call (.pinMux 10 (.clk 0 .u0)) .fail, .own 0 none]) := by decide
/-- END's timeout is recorded and END goes on (R120). -/
theorem test_end_goes_on :
    part (exec .end_ { row running0 (.end_ .e2) with script := [timeoutAnswer .host] })
      (fun t => (seq0 t, (t.block? 0).map (fun b => b.work.err))) =
    some (some (some (.end_ .e3)), some .hwsync) := by decide
/-- END keeps CHMODE (W10). -/
theorem test_end_keeps_chmode :
    part (exec .end_ (row { running0 with chMode := .stereo } (.end_ .e9)))
      (fun t => (status0 t, t.owner 0)) = some (some 0x00000402, none) := by decide
/-- C-10, the forced failure of generator 200. -/
theorem test_configure_forced_fail :
    part (exec (.configure false)
        (row { idle0 with k := 200, work := { work0 with r := .ok 48 1 1024000 } } (.configure .c8)))
      (fun t => (status0 t, t.trace)) =
    some (some 0x00000330, [.call (.genConfigure 200 .ref 48) .fail]) := by decide
/-- C-3's commit. -/
theorem test_configure_commit :
    part (exec (.configure false)
        (row { idle0 with work := { work0 with r := .ok 48 1 1024000 } } (.configure .c19)))
      (fun t => (status0 t, (t.block? 0).map Block.cfgFbckReg)) =
    some (some 0x00000A02, some 0x000FA000) := by decide
/-- RD2 returns the word and clears the flag (R148). -/
theorem test_read_takes_word :
    part (exec .read
        (row running0 (.read .rd2) { engine0 with rxrdy := ⟨true, true⟩, data := ⟨7, 8⟩ }))
      (fun t => ((t.block? 0).map Block.resWord, (t.engine 0).rxrdy)) =
    some (some 7, ⟨false, true⟩) := by decide
/-- R-7's fault: another block owns the engine (R161). -/
theorem test_read_shared_engine :
    faultOf (exec .read
        (row running0 (.read .rd1) { engine0 with rxrdy := ⟨true, false⟩ } (some 5))) =
    some .sharedEngine := by decide
/-- V-Q5: `0x80000000` is `-2^31`. -/
theorem test_read_buf_negative_count :
    part (exec .readBuf
        (row { running0 with argBuf := 0x20000000, argCount := 0x80000000 } (.readBuf .q0)))
      status0 = some (some 0x00000A40) := by decide
/-- V-Q11. -/
theorem test_read_buf_little_endian :
    part (exec .readBuf
        (row { running0 with work := { work0 with buf := 0x20000000, w := 0x11223344, n := 1 } }
          (.readBuf .q5)))
      (fun t => t.buf) =
    some [(0x20000000, 0x44), (0x20000001, 0x33), (0x20000002, 0x22), (0x20000003, 0x11)] := by decide
/-- V-Q12. -/
theorem test_big_endian_byte_order :
    Memory.writeWord [] .be 0x20000000 0x11223344 =
    [(0x20000000, 0x11), (0x20000001, 0x22), (0x20000002, 0x33), (0x20000003, 0x44)] := by decide
/-- V-Q10: the word after the last one below `2^32` has no step. -/
theorem test_read_buf_stuck_past_the_end :
    (row { running0 with work := { work0 with buf := 0xFFFFFFFC, i := 1, n := 2 } }
      (.readBuf .q5)).stuckAtStore 0 = true := by decide
/-- G-2. -/
theorem test_get_ser_index_one :
    part (exec .getSerIndex (row { running0 with m := .u1 } .getSerIndex))
      (fun t => ((t.block? 0).map Block.resWord, status0 t)) =
    some (some 1, some 0x00000A02) := by decide
/-- 2.1's ILLEGAL from `IDLE`. -/
theorem test_illegal : part (step (row idle0 .illegal)) status0 = some (some 0x00000160) := by decide

/-! ## Port accesses (95_test_vectors.md 2.9) -/

theorem test_port_reserved_read : faultOf (step (hostDoes block0 (.rd 0 32 0x24))) = some .portReserved := by
  decide
theorem test_port_byte_load : faultOf (step (hostDoes block0 (.rd 0 8 0x10))) = some .portAccess := by
  decide
theorem test_port_write_while_busy :
    faultOf (step (hostDoes { idle0 with seq := some (.read .rd1) } (.wr 0 32 0x04 1))) =
      some .concurrent := by decide
theorem test_port_status_while_busy :
    part (step (hostDoes { idle0 with seq := some (.read .rd1) } (.rd 0 32 0x10)))
      (fun t => t.received) = some [0x00000103] := by decide
theorem test_host_memory_word :
    part (step { hostDoes block0 (.mrd 0x20000000) with
        buf := [(0x20000000, 0x44), (0x20000001, 0x33), (0x20000002, 0x22), (0x20000003, 0x11)] })
      (fun t => t.received) = some [0x11223344] := by decide

/-- R59, `LE`: byte `addr + 1` of `0x11223344` is `w[15:8]`. -/
theorem test_host_byte_le :
    part (step (State.memWrite (hostDoes block0 (.loadByte 0x20000001)) 0x20000000 0x11223344))
      (fun t => t.received) = some [0x33] := by decide
/-- R59, `BE`: bytes `addr + 1` and `addr + 2` are `w[23:16]` and `w[15:8]`. -/
theorem test_host_half_be :
    part (step (State.memWrite
        { hostDoes block0 (.loadHalf 0x20000001) with params := { Params.p0 with hostEndian := .be } }
        0x20000000 0x11223344))
      (fun t => t.received) = some [0x2233] := by decide
/-- R59, `LE`: a halfword's low byte lies lower. -/
theorem test_host_half_store :
    part (step (hostDoes block0 (.storeHalf 0x20000FFE 0xABCD))) (fun t => t.buf) =
      some [(0x20000FFE, 0xCD), (0x20000FFF, 0xAB)] := by decide
theorem test_host_byte_past_the_end :
    faultOf (step (hostDoes block0 (.storeByte 0x20001000 1))) = some .hostMemory := by decide

/-! ## The assembler (R85 to R89) -/

theorem test_parse_configure :
    parseLine "CONFIGURE 16000, mono ; rate".toList = some (.configure 16000 false) := by decide
theorem test_parse_read_buf_null : parseLine "READ_BUF null, -1".toList = some (.readBuf 0 (-1)) := by
  decide
/-- R87's own example. -/
theorem test_parse_rd_name : parseLine "rd STATUS -> x".toList = some (.rd 0x10) := by decide
/-- R85: a comment starts at the `;`, also where P3 writes a second primitive behind it (log entry 28). -/
theorem test_parse_comment : parseLine "WR 0x00, 0x00000007 ; WAIT".toList = some (.wr 0 7) := by decide
/-- A tab separates as a space does (log entry 28). -/
theorem test_parse_tab : parseLine "\tWR\t0x04, 5".toList = some (.wr 4 5) := by decide
/-- 95_test_vectors.md, program P1. -/
theorem test_parse_rd_offset : parseLine "RD 0x20 -> f ; f".toList = some (.rd 0x20) := by decide
theorem test_expand_configure :
    Line.expand 0 (.configure 16000 true) =
      [.wr 0 32 0x04 0x00003E80, .wr 0 32 0x00 0x00000103, .wait 0] := by decide
theorem test_expand_read_buf :
    Line.expand 0 (.readBuf 0x20000000 (-1)) =
      [.wr 0 32 0x0C 0x20000000, .wr 0 32 0x08 0xFFFFFFFF, .wr 0 32 0x00 0x00000005, .wait 0] := by
  decide
theorem test_assembly_error : assemble 0 [.begin, .configure (-1) false] = none := by decide

/-! ## Witnesses: for every statement with hypotheses, states and operands that meet them -/

/-- The host's hypotheses of a port access. -/
theorem hostDoes_meets (b : Block) (op : HostOp) :
    (hostDoes b op).turn = .host ∧ (hostDoes b op).program = op :: [] ∧
      (hostDoes b op).block? 0 = some b := ⟨rfl, rfl, rfl⟩

theorem witness_DecodeExactlyTheSevenWords :
    reservedField 0x80000001 ≠ 0 ∧
      (stereoField 0x00000101 = true ∧ opcodeField 0x00000101 ≠ 0x03) := by decide

theorem witness_CommandWriteStartsCommand :
    ((hostDoes idle0 (.wr 0 32 0x00 0x00000103)).turn = .host ∧
      (hostDoes idle0 (.wr 0 32 0x00 0x00000103)).program = .wr 0 32 0x00 0x00000103 :: [] ∧
      (hostDoes idle0 (.wr 0 32 0x00 0x00000103)).block? 0 = some idle0 ∧ idle0.seq = none ∧
      decode 0x00000103 = .ok (.configure true)) ∧
    ((hostDoes { idle0 with seq := some (.read .rd1) } (.wr 0 32 0x00 1)).block? 0 =
        some { idle0 with seq := some (.read .rd1) } ∧
      ({ idle0 with seq := some (.read .rd1) } : Block).seq ≠ none) ∧
    decode 1 = .ok .begin ∧ decode 2 = .ok .end_ ∧ decode 4 = .ok .read ∧ decode 5 = .ok .readBuf ∧
    decode 6 = .ok .getSerIndex ∧ decode 7 = .error .unassignedOpcode :=
  ⟨⟨rfl, rfl, rfl, rfl, by decide⟩, ⟨rfl, by simp⟩, by decide, by decide, by decide, by decide,
    by decide, by decide⟩

theorem witness_StepRunsTheDecodedCommand :
    ((one idle0).block? (one idle0).fetchId = some idle0 ∧ decode 3 = .ok (.configure false)) ∧
    ((row running0 (.readBuf .q6)).atRow 0 { running0 with seq := some (.readBuf .q6) } (.readBuf .q6) ∧
      Position.instr false (.readBuf .q6) = some .readBuf) :=
  ⟨⟨rfl, by decide⟩, row_atRow .., rfl⟩

theorem witness_IllegalCommandOnlyFinishes :
    (row idle0 .illegal).atRow 0 { idle0 with seq := some .illegal } .illegal := row_atRow ..

theorem witness_PortReadReturnsRegister :
    ∀ off ∈ ([0x00, 0x04, 0x08, 0x0C, 0x10, 0x14, 0x18, 0x1C, 0x20] : List (BitVec 6)),
      (hostDoes running0 (.rd 0 32 off)).turn = .host ∧
      (hostDoes running0 (.rd 0 32 off)).program = .rd 0 32 off :: [] ∧
      (hostDoes running0 (.rd 0 32 off)).block? 0 = some running0 ∧
      let v := running0.readPort (portRegAt off.toNat)
      (off = 0x00 ∧ v = running0.cmd ∨ off = 0x04 ∧ v = running0.argRate ∨
        off = 0x08 ∧ v = running0.argCount ∨ off = 0x0C ∧ v = running0.argBuf ∨
        off = 0x10 ∧ v = running0.status ∨ off = 0x14 ∧ v = running0.resWord ∨
        off = 0x18 ∧ v = BitVec.ofNat 32 running0.cfgG ∨
        off = 0x1C ∧ v = BitVec.ofNat 32 running0.cfgS ∨
        off = 0x20 ∧ v = BitVec.ofNat 32 running0.cfgF) := by decide

/-- `WAIT`'s hypotheses, busy and not, and CONSTRUCT's (PortReadReturnsRegister, ResetValues). -/
theorem witness_WaitAndConstruct :
    ((hostDoes idle0 (.wait 0)).block? 0 = some idle0 ∧ idle0.status.getLsbD 0 = false) ∧
    ((hostDoes { idle0 with seq := some (.read .rd1) } (.wait 0)).block? 0 =
        some { idle0 with seq := some (.read .rd1) } ∧
      ({ idle0 with seq := some (.read .rd1) } : Block).status.getLsbD 0 = true) ∧
    (hostDoes idle0 (.wait 0)).turn = .host ∧
    (hostDoes idle0 (.wait 0)).program = .wait 0 :: [] ∧
    (hostDoes idle0 (.construct 1 2 200)).program = .construct 1 2 200 :: [] ∧
    (hostDoes idle0 (.construct 1 2 200)).params.legal = true := by decide

/-- R109: CONSTRUCT gives a fresh block on the units of `UNIT_MAP`, and P0 maps every pair to `(0, 0, 0)`
(R10). -/
theorem test_construct :
    part (step (hostDoes idle0 (.construct 1 2 200)))
      (fun t => (t.block? 1).map (fun b => (b.e, b.c, b.m, b.k, b.status))) =
    some (some (0, .u0, .u0, 200, 0)) := by decide

theorem witness_UndefinedPortAccessFaults :
    ((hostDoes block0 (.rd 0 32 0x24)).turn = .host ∧
      (hostDoes block0 (.rd 0 32 0x24)).block? 0 = some block0 ∧
      (hostDoes block0 (.rd 0 32 0x24)).program = .rd 0 32 0x24 :: [] ∧ 0x24 ≤ (0x24 : BitVec 6).toNat) ∧
    ((hostDoes block0 (.wr 0 8 0x3F 1)).program = .wr 0 8 0x3F 1 :: [] ∧
      0x24 ≤ (0x3F : BitVec 6).toNat) ∧
    ((hostDoes block0 (.wr 0 32 0x23 1)).program = .wr 0 32 0x23 1 :: [] ∧
      (0x23 : BitVec 6).toNat < 0x24 ∧ (0x23 : BitVec 6).toNat % 4 ≠ 0) ∧
    ((hostDoes block0 (.rd 0 8 0x00)).program = .rd 0 8 0x00 :: [] ∧
      (0x00 : BitVec 6).toNat < 0x24 ∧ 8 ≠ 32) := by decide

theorem witness_PortRegisterWrites :
    (∀ off ∈ ([0x04, 0x08, 0x0C, 0x10, 0x14, 0x18, 0x1C, 0x20] : List (BitVec 6)),
      (hostDoes idle0 (.wr 0 32 off 5)).turn = .host ∧
      (hostDoes idle0 (.wr 0 32 off 5)).program = .wr 0 32 off 5 :: [] ∧
      (hostDoes idle0 (.wr 0 32 off 5)).block? 0 = some idle0) ∧ idle0.seq = none ∧
    ({ idle0 with seq := some (.read .rd1) } : Block).seq ≠ none := by decide

theorem witness_HostSeesTheStoredBytes :
    (∀ op ∈ [HostOp.loadByte 0x20000003, .loadHalf 0x20000002, .mrd 0x20000000, .storeByte 0x20000FFF 1,
        .storeHalf 0x20000FFE 2, .mwr 0x20000FFC 3],
      (hostDoes block0 op).turn = .host ∧ (hostDoes block0 op).program = op :: []) ∧
    (0x20000003 : Word).toNat = 0x20000000 + 3 ∧ (0x20000002 : Word).toNat = 0x20000000 + 2 ∧
    (hostDoes block0 (.loadByte 0x20000003)).accessOk 1 0x20000003 = true ∧
    (hostDoes block0 (.loadHalf 0x20000002)).accessOk 2 0x20000002 = true ∧
    (hostDoes block0 (.mrd 0x20000000)).accessOk 4 0x20000000 = true ∧
    (hostDoes block0 (.storeByte 0x20000FFF 1)).accessOk 1 0x20000FFF = true ∧
    (hostDoes block0 (.storeByte 0x20001000 1)).accessOk 1 0x20001000 = false ∧
    (hostDoes block0 (.storeHalf 0x20000FFE 2)).accessOk 2 0x20000FFE = true ∧
    (hostDoes block0 (.storeHalf 0x20000FFF 2)).accessOk 2 0x20000FFF = false ∧
    (hostDoes block0 (.mwr 0x20000FFC 3)).accessOk 4 0x20000FFC = true ∧
    (hostDoes block0 (.mwr 0x20000FFD 3)).accessOk 4 0x20000FFD = false ∧
    ∃ t, step (hostDoes block0 (.mrd 0x20000000)) = .next t := by
  refine ⟨by decide, by decide, by decide, by decide, by decide, by decide, by decide, by decide,
    by decide, by decide, by decide, by decide, _, rfl⟩

/-- One block stuck at Q5 and another holding at RD1: the run has ended stuck, and not as a hang (R199). -/
theorem test_stuck_is_no_hang :
    let s := { row { running0 with work := { work0 with buf := 0xFFFFFFFC, i := 1, n := 2 } }
        (.readBuf .q5) with
      blocks := [(0, { running0 with
          work := { work0 with buf := 0xFFFFFFFC, i := 1, n := 2 }, seq := some (.readBuf .q5) }),
        (1, { running0 with seq := some (.read .rd1) })] }
    s.stuckAtStore 0 = true ∧ s.holdsAtPoll 1 = true ∧ s.enabled .host = false ∧
      s.enabled (.sequencer 0) = false ∧ s.enabled (.sequencer 1) = false ∧ ¬ s.hang :=
  ⟨by decide, by decide, by decide, by decide, by decide, fun h => absurd (h.2.1 0) (by decide)⟩

theorem witness_BeginChecksStateAndOwner :
    ((row idle0 (.begin .b0)).atRow 0 { idle0 with seq := some (.begin .b0) } (.begin .b0) ∧
      idle0.lifecycle ≠ .uninit) ∧
    ((row block0 (.begin .b0)).atRow 0 { block0 with seq := some (.begin .b0) } (.begin .b0) ∧
      block0.lifecycle = .uninit) ∧
    ((row block0 (.begin .b1) engine0 (some 5)).atRow 0 { block0 with seq := some (.begin .b1) }
        (.begin .b1) ∧ (row block0 (.begin .b1) engine0 (some 5)).owner block0.e ≠ none) ∧
    ((row block0 (.begin .b1) engine0 none).atRow 0 { block0 with seq := some (.begin .b1) }
        (.begin .b1) ∧ (row block0 (.begin .b1) engine0 none).owner block0.e = none) :=
  ⟨⟨row_atRow .., by decide⟩, ⟨row_atRow .., rfl⟩, ⟨row_atRow .., by decide⟩, row_atRow .., by decide⟩

theorem witness_BeginBindsPinsOrUndoes :
    (row block0 (.begin .b2)).atRow 0 { block0 with seq := some (.begin .b2) } (.begin .b2) ∧
    (row block0 (.begin .b2)).answer.call = .ok ∧
    { row block0 (.begin .b2) with script := [failAnswer .host] }.atRow 0
      { block0 with seq := some (.begin .b2) } (.begin .b2) ∧
    { row block0 (.begin .b2) with script := [failAnswer .host] }.answer.call = .fail ∧
    (row block0 (.begin .b3)).atRow 0 { block0 with seq := some (.begin .b3) } (.begin .b3) ∧
    (row block0 (.begin .b3f)).atRow 0 { block0 with seq := some (.begin .b3f) } (.begin .b3f) :=
  ⟨row_atRow .., rfl, ⟨rfl, rfl, rfl⟩, rfl, row_atRow .., row_atRow ..⟩

theorem witness_BeginResetsEngine :
    (row block0 (.begin .b4)).atRow 0 { block0 with seq := some (.begin .b4) } (.begin .b4) ∧
    (row block0 (.begin .b5)).atRow 0 { block0 with seq := some (.begin .b5) } (.begin .b5) ∧
    (row block0 (.begin .b5)).answer.sync = .ok ∧
    { row block0 (.begin .b5) with script := [timeoutAnswer .host] }.atRow 0
      { block0 with seq := some (.begin .b5) } (.begin .b5) ∧
    { row block0 (.begin .b5) with script := [timeoutAnswer .host] }.answer.sync = .timeout :=
  ⟨row_atRow .., row_atRow .., rfl, ⟨rfl, rfl, rfl⟩, rfl⟩

theorem witness_BeginDisablesUnitsAndCommits :
    (∃ f wrRow syncRow next,
      (f = CtrlField.seren block0.m ∧ wrRow = .b6 ∧ syncRow = .b7 ∧ next = .b8 ∨
        f = .cken block0.c ∧ wrRow = .b8 ∧ syncRow = .b9 ∧ next = BeginRow.b10) ∧
      (row block0 (.begin wrRow)).atRow 0 { block0 with seq := some (.begin wrRow) } (.begin wrRow) ∧
      (row block0 (.begin syncRow)).atRow 0 { block0 with seq := some (.begin syncRow) }
        (.begin syncRow) ∧
      (row block0 (.begin syncRow)).answer.sync = .ok ∧
      { row block0 (.begin syncRow) with script := [timeoutAnswer .host] }.answer.sync = .timeout) ∧
    (row block0 (.begin .b8)).atRow 0 { block0 with seq := some (.begin .b8) } (.begin .b8) ∧
    (row block0 (.begin .b9)).atRow 0 { block0 with seq := some (.begin .b9) } (.begin .b9) ∧
    (row block0 (.begin .b10)).atRow 0 { block0 with seq := some (.begin .b10) } (.begin .b10) :=
  ⟨⟨_, .b6, .b7, _, .inl ⟨rfl, rfl, rfl, rfl⟩, row_atRow .., row_atRow .., rfl, rfl⟩,
    row_atRow .., row_atRow .., row_atRow ..⟩

/-- `s` with `n` answers of `ok` in advance, the turn staying with block 0. -/
def withOks (s : State) (n : Nat) : State :=
  { s with script := List.replicate n (okAnswer (.sequencer 0)) }

theorem withOks_okScript (s : State) (n : Nat) : (withOks s n).okScript 0 n :=
  ⟨by simp [withOks], fun a ha => by
    have h : a = okAnswer (.sequencer 0) :=
      List.eq_of_mem_replicate (List.mem_of_mem_take ha)
    subst h; exact ⟨rfl, rfl, rfl⟩⟩

theorem witness_BeginAllOkRun :
    (withOks (row block0 (.begin .b0) engine0 none) 11).atRow 0
      { block0 with seq := some (.begin .b0) } (.begin .b0) ∧ block0.lifecycle = .uninit ∧
    (withOks (row block0 (.begin .b0) engine0 none) 11).owner block0.e = none ∧
    (withOks (row block0 (.begin .b0) engine0 none) 11).okScript 0 11 :=
  ⟨⟨rfl, rfl, rfl⟩, rfl, by decide, withOks_okScript ..⟩

theorem witness_EndStartsAndReleases :
    ((row block0 (.end_ .e0)).atRow 0 { block0 with seq := some (.end_ .e0) } (.end_ .e0) ∧
      block0.lifecycle = .uninit) ∧
    ((row lost0 (.end_ .e0)).atRow 0 { lost0 with seq := some (.end_ .e0) } (.end_ .e0) ∧
      lost0.lifecycle ≠ .uninit) ∧
    (row idle0 (.end_ .e7)).atRow 0 { idle0 with seq := some (.end_ .e7) } (.end_ .e7) ∧
    (row idle0 (.end_ .e8)).atRow 0 { idle0 with seq := some (.end_ .e8) } (.end_ .e8) ∧
    (row idle0 (.end_ .e9)).atRow 0 { idle0 with seq := some (.end_ .e9) } (.end_ .e9) :=
  ⟨⟨row_atRow .., rfl⟩, ⟨row_atRow .., by decide⟩, row_atRow .., row_atRow .., row_atRow ..⟩

theorem witness_EndDisablesAndGoesOn :
    (∃ f wrRow syncRow next,
      (f = CtrlField.seren idle0.m ∧ wrRow = .e1 ∧ syncRow = .e2 ∧ next = .e3 ∨
        f = .cken idle0.c ∧ wrRow = .e3 ∧ syncRow = .e4 ∧ next = .e5 ∨
        f = .enable ∧ wrRow = .e5 ∧ syncRow = .e6 ∧ next = EndRow.e7) ∧
      (row idle0 (.end_ wrRow)).atRow 0 { idle0 with seq := some (.end_ wrRow) } (.end_ wrRow) ∧
      (row idle0 (.end_ syncRow)).atRow 0 { idle0 with seq := some (.end_ syncRow) } (.end_ syncRow) ∧
      (row idle0 (.end_ syncRow)).answer.sync = .ok ∧
      { row idle0 (.end_ syncRow) with script := [timeoutAnswer .host] }.answer.sync = .timeout) ∧
    (row idle0 (.end_ .e1)).atRow 0 { idle0 with seq := some (.end_ .e1) } (.end_ .e1) ∧
    (row idle0 (.end_ .e4)).atRow 0 { idle0 with seq := some (.end_ .e4) } (.end_ .e4) :=
  ⟨⟨_, .e5, .e6, _, .inr (.inr ⟨rfl, rfl, rfl, rfl⟩), row_atRow .., row_atRow .., rfl, rfl⟩,
    row_atRow .., row_atRow ..⟩

theorem witness_EndRunWhateverTheOutcomes :
    let a := okAnswer (.sequencer 0)
    let s := { row running0 (.end_ .e0) with
      script := [a, a, timeoutAnswer (.sequencer 0), a, a, a, a, failAnswer (.sequencer 0), a, a] }
    s.atRow 0 { running0 with seq := some (.end_ .e0) } (.end_ .e0) ∧ running0.lifecycle ≠ .uninit ∧
      s.script = [a, a, timeoutAnswer (.sequencer 0), a, a, a, a, failAnswer (.sequencer 0), a, a] ++ [] ∧
      ∀ x ∈ [a, a, timeoutAnswer (.sequencer 0), a, a, a, a, failAnswer (.sequencer 0), a],
        x.agent = .sequencer 0 :=
  ⟨⟨rfl, rfl, rfl⟩, by decide, rfl, by decide⟩

theorem witness_GetSerIndexReturnsIndex :
    (row lost0 .getSerIndex).atRow 0 { lost0 with seq := some .getSerIndex } .getSerIndex := row_atRow ..

theorem witness_CalculatorOkProperties :
    Params.p0.legal = true ∧ calculate Params.p0 100 = .ok 240 32 6400 := by decide +kernel

theorem witness_CalculatorUsesGenericStage :
    Params.p0.legal = true ∧ 3200 ≠ 0 ∧ 3200 * Params.p0.osr ≤ Params.p0.fSckMax ∧
      Params.p0.fRef % (3200 * Params.p0.osr) = 0 ∧
      Params.p0.fRef / (3200 * Params.p0.osr) ≤ Params.p0.gdivMax := by decide

theorem witness_ConfigureChecksState :
    (∀ b ∈ [block0, lost0, idle0, running0],
      (row b (.configure .c0)).atRow 0 { b with seq := some (.configure .c0) } (.configure .c0)) ∧
    block0.lifecycle = .uninit ∧ lost0.lifecycle = .indeterminate ∧ idle0.lifecycle = .idle ∧
    running0.lifecycle = .running :=
  ⟨fun _ _ => row_atRow .., rfl, rfl, rfl, rfl⟩

theorem witness_ConfigureCalculatesFirst :
    ((row { idle0 with work := { work0 with rate := 44100 } } (.configure .c1)).atRow 0
        { idle0 with work := { work0 with rate := 44100 }, seq := some (.configure .c1) }
        (.configure .c1) ∧ calculate Params.p0 44100 = .fail .notExact) ∧
    ((row { idle0 with work := { work0 with rate := 16000 } } (.configure .c1)).atRow 0
        { idle0 with work := { work0 with rate := 16000 }, seq := some (.configure .c1) }
        (.configure .c1) ∧ calculate Params.p0 16000 = .ok 48 1 1024000) :=
  ⟨⟨row_atRow .., by decide⟩, row_atRow .., test_calc_16000⟩

theorem witness_ConfigureSynchronisesEnables :
    (∀ r ∈ [ConfigureRow.c2, .c4, .c6, .c13, .c15, .c17, .c3, .c5, .c7, .c14, .c16, .c18],
      (row idle0 (.configure r)).atRow 0 { idle0 with seq := some (.configure r) } (.configure r)) ∧
    (row idle0 (.configure .c3)).answer.sync = .ok ∧
    { row idle0 (.configure .c3) with script := [timeoutAnswer .host] }.answer.sync = .timeout :=
  ⟨fun _ _ => row_atRow .., rfl, rfl⟩

/-- An `IDLE` block with the calculator's result for 16000 in its working registers. -/
def ready0 : Block := { idle0 with work := { work0 with r := .ok 48 1 1024000, rate := 16000 } }

theorem witness_ConfigureProgramsGenerator :
    ready0.work.r = .ok 48 1 1024000 ∧
    (∀ r ∈ [ConfigureRow.c8, .c9, .c10],
      (row ready0 (.configure r)).atRow 0 { ready0 with seq := some (.configure r) } (.configure r) ∧
      (row ready0 (.configure r)).answer.call = .ok ∧
      ready0.k.toNat < (row ready0 (.configure r)).params.gclkCount ∧
      { row ready0 (.configure r) with script := [failAnswer .host] }.answer.call = .fail ∧
      (row { ready0 with k := 8 } (.configure r)).params.gclkCount ≤ (8 : BitVec 8).toNat) := by
  refine ⟨rfl, fun r _ => ⟨row_atRow .., rfl, ?_, rfl, ?_⟩⟩ <;>
    simp [row, one, Params.p0, ready0, idle0, block0]

theorem witness_ConfigureWritesDivisorAndFormat :
    ready0.work.r = .ok 48 1 1024000 ∧
    (row ready0 (.configure .c11)).atRow 0 { ready0 with seq := some (.configure .c11) }
      (.configure .c11) ∧
    ((row ready0 (.configure .c11)).engine 0).clkProtected .u0 = false ∧
    ((row ready0 (.configure .c11) { engine0 with ctrl := CtrlFields.all true }).engine 0).clkProtected
      .u0 = true ∧
    (row ready0 (.configure .c12)).atRow 0 { ready0 with seq := some (.configure .c12) }
      (.configure .c12) ∧
    ((row ready0 (.configure .c12)).engine 0).fmtProtected .u0 = false ∧
    ((row ready0 (.configure .c12) (engine0.wrCtrl (.seren .u1) false)).engine 0).fmtProtected
      .u0 = true :=
  ⟨rfl, row_atRow .., by decide, by decide, row_atRow .., by decide, by decide⟩

theorem witness_ConfigureCommitsTogether :
    (row ready0 (.configure .c19)).atRow 0 { ready0 with seq := some (.configure .c19) }
      (.configure .c19) ∧ ready0.work.r = .ok 48 1 1024000 := ⟨row_atRow .., rfl⟩

theorem witness_ConfigureAllOkRun :
    let b : Block := { idle0 with argRate := 16000 }
    let s := withOks (row b (.configure .c0)) 20
    s.params.legal = true ∧ s.atRow 0 { b with seq := some (.configure .c0) } (.configure .c0) ∧
      (b.lifecycle = .idle ∨ b.lifecycle = .running) ∧
      calculate s.params b.argRate.toNat = .ok 48 1 1024000 ∧ b.k.toNat < s.params.gclkCount ∧
      (s.engine b.e).anyPending = false ∧ s.okScript 0 20 :=
  ⟨by decide, ⟨rfl, rfl, rfl⟩, .inl rfl, test_calc_16000, by decide, by decide, withOks_okScript ..⟩

/-- Profile P0 with `CHECKED_READ`. -/
def checked (s : State) : State := { s with params := { Params.p0 with checkedRead := true } }

theorem witness_ReadChecksStateOnlyIfAsked :
    ((checked (row idle0 (.read .rd0))).atRow 0 { idle0 with seq := some (.read .rd0) } (.read .rd0) ∧
      (checked (row idle0 (.read .rd0))).params.checkedRead = true ∧ idle0.lifecycle ≠ .running) ∧
    ((row idle0 (.read .rd0)).atRow 0 { idle0 with seq := some (.read .rd0) } (.read .rd0) ∧
      (row idle0 (.read .rd0)).params.checkedRead = false) ∧
    ((checked (row running0 (.read .rd0))).atRow 0 { running0 with seq := some (.read .rd0) }
        (.read .rd0) ∧ running0.lifecycle = .running) :=
  ⟨⟨⟨rfl, rfl, rfl⟩, rfl, by decide⟩, ⟨row_atRow .., rfl⟩, ⟨rfl, rfl, rfl⟩, rfl⟩

/-- An engine with serializer 0's flag 1. -/
def engineReady : Engine := { engine0 with rxrdy := ⟨true, false⟩ }

theorem witness_ReadPollsReadyFlag :
    ((row running0 (.read .rd1)).atRow 0 { running0 with seq := some (.read .rd1) } (.read .rd1) ∧
      ((row running0 (.read .rd1)).engine 0).rxrdy.get .u0 = false) ∧
    (∀ o ∈ [none, some 0, some 5],
      (row running0 (.read .rd1) engineReady o).atRow 0 { running0 with seq := some (.read .rd1) }
        (.read .rd1) ∧
      ((row running0 (.read .rd1) engineReady o).engine 0).rxrdy.get .u0 = true ∧
      (row running0 (.read .rd1) engineReady o).owner 0 = o) :=
  ⟨⟨row_atRow .., by decide⟩, fun o _ => ⟨row_atRow .., rfl, by
    simp [row, one, State.owner, Table.at?]⟩⟩

theorem witness_ReadTakesWordAndClearsFlag :
    (row running0 (.read .rd2)).atRow 0 { running0 with seq := some (.read .rd2) } (.read .rd2) :=
  row_atRow ..

theorem witness_ReadBufChecksArgumentsFirst :
    (∀ b : Block, (row b (.readBuf .q0)).atRow 0 { b with seq := some (.readBuf .q0) } (.readBuf .q0)) ∧
    ({ idle0 with argCount := 5 } : Block).argBuf = 0 ∧
    ({ idle0 with argBuf := 0x20000000, argCount := 0x80000000 } : Block).argCount.toInt ≤ 0 ∧
    ({ idle0 with argBuf := 0x20000000, argCount := 0 } : Block).argCount.toInt ≤ 0 ∧
    (({ idle0 with argBuf := 0x20000000, argCount := 1 } : Block).argBuf ≠ 0 ∧
      0 < ({ idle0 with argBuf := 0x20000000, argCount := 1 } : Block).argCount.toInt) ∧
    ((checked (row idle0 (.readBuf .q1))).atRow 0 { idle0 with seq := some (.readBuf .q1) }
        (.readBuf .q1) ∧
      (checked (row idle0 (.readBuf .q1))).params.checkedRead = true ∧ idle0.lifecycle ≠ .running) ∧
    ((row idle0 (.readBuf .q1)).atRow 0 { idle0 with seq := some (.readBuf .q1) } (.readBuf .q1) ∧
      (row idle0 (.readBuf .q1)).params.checkedRead = false) :=
  ⟨fun _ => row_atRow .., rfl, by decide, by decide, ⟨by decide, by decide⟩,
    ⟨⟨rfl, rfl, rfl⟩, rfl, by decide⟩, row_atRow .., rfl⟩

theorem witness_ReadBufFaultsOnMisalignedBuffer :
    (∀ b : Block, (row b (.readBuf .q2)).atRow 0 { b with seq := some (.readBuf .q2) } (.readBuf .q2)) ∧
    (0x20000003 : Word).toNat % 4 ≠ 0 ∧ (0x20000004 : Word).toNat % 4 = 0 :=
  ⟨fun _ => row_atRow .., by decide, by decide⟩

/-- A READ_BUF at word `i` of `n` with base address `a`. -/
def buffering (a : Word) (i : Nat) (n : Int) : Block :=
  { running0 with work := { work0 with buf := a, i := i, n := n } }

theorem witness_ReadBufWordRows :
    (∀ b r en o, (row b (.readBuf r) en o).atRow 0 { b with seq := some (.readBuf r) } (.readBuf r)) ∧
    ((row running0 (.readBuf .q3)).engine 0).rxrdy.get .u0 = false ∧
    ((row running0 (.readBuf .q3) engineReady (some 5)).engine 0).rxrdy.get .u0 = true ∧
    (row running0 (.readBuf .q3) engineReady (some 5)).owner 0 = some 5 ∧
    (row running0 (.readBuf .q3) engineReady none).owner 0 = none ∧
    (row (buffering 0x20000000 1023 1024) (.readBuf .q5)).memOk (0x20000000 + 4 * 1023) = true ∧
    (row (buffering 0x20000000 1024 1025) (.readBuf .q5)).memOk (0x20000000 + 4 * 1024) = false ∧
    (((0 : Nat) : Int) + 1 < (buffering 0x20000000 0 2).work.n) ∧
    ((buffering 0x20000000 1 2).work.n ≤ ((1 : Nat) : Int) + 1) :=
  ⟨fun _ _ _ _ => row_atRow .., by decide, by decide, by decide, by decide, by decide, by decide,
    by decide, by decide⟩

/-- An engine whose serializer 0 receives, and a state that routes an enabled generator to it. -/
def engineActive : Engine :=
  { engine0 with
    ctrl := CtrlFields.all true
    fmt := ⟨frameFormat Params.p0 false .u0, frameFormat Params.p0 false .u0⟩ }

/-- The generator runs and feeds clock unit 0. -/
def fed (s : State) : State :=
  { s with gens := [(3, ⟨.ref, 48, true⟩)], routes := [(0, ⟨some 3, none⟩)] }

/-- One word's answers: a delivery of `w`, three rows, and the turn back to the producer. -/
def wordScript (w : Word) : List Answer :=
  [okAnswer (.sequencer 0) w, okAnswer (.sequencer 0), okAnswer (.sequencer 0),
    okAnswer (.sequencer 0), okAnswer (.producer 0 .u0)]

theorem witness_ReadBufFillsBufferInOrder :
    let b : Block := { buffering 0x20000000 0 2 with seq := some (.readBuf .q3) }
    let s := { fed (one b engineActive) with
      turn := .producer 0 .u0, script := ([7, 8] : List Word).flatMap wordScript ++ [] }
    s.turn = .producer b.e b.m ∧ s.block? 0 = some b ∧ b.seq = some (.readBuf .q3) ∧
      s.rxActive b.e b.m = true ∧ b.e < s.params.nEngines ∧ s.owner b.e = some 0 ∧ b.work.i = 0 ∧
      ([7, 8] : List Word) ≠ [] ∧ b.work.n = ([7, 8] : List Word).length ∧
      (∀ j, j < ([7, 8] : List Word).length → s.memOk (b.work.buf.toNat + 4 * j) = true) ∧
      (∀ w, ∃ a0 a1 a2 a3 a4, wordScript w = [a0, a1, a2, a3, a4] ∧ a0.word = w ∧
        a0.agent = .sequencer 0 ∧ a1.agent = .sequencer 0 ∧ a2.agent = .sequencer 0 ∧
        a3.agent = .sequencer 0 ∧ a4.agent = .producer b.e b.m) ∧
      s.script = ([7, 8] : List Word).flatMap wordScript ++ [] :=
  ⟨rfl, rfl, rfl, by decide, by decide, by decide, rfl, by decide, rfl, by decide,
    fun _ => ⟨_, _, _, _, _, rfl, rfl, rfl, rfl, rfl, rfl, rfl⟩, rfl⟩

theorem witness_ReadBufNeverFailsLate :
    let b := buffering 0x20000000 1 2
    (row b (.readBuf .q6)).atRow 0 { b with seq := some (.readBuf .q6) } (.readBuf .q6) ∧
      part (exec .readBuf (row b (.readBuf .q6))) seq0 = some (some none) :=
  ⟨row_atRow .., by decide⟩

theorem witness_ProducerDeliversWhileActive :
    (let s := { fed (one running0 engineActive) with turn := .producer 0 .u0 }
     s.turn = .producer 0 .u0 ∧ 0 < s.params.nEngines ∧ s.rxActive 0 .u0 = true) ∧
    (let s := { one running0 with turn := .producer 1 .u1 }
     s.turn = .producer 1 .u1 ∧ s.params.nEngines ≤ 1) ∧
    (let s := { one running0 with turn := .producer 0 .u1 }
     s.turn = .producer 0 .u1 ∧ s.rxActive 0 .u1 = false) := by decide

theorem witness_LifecycleCommandsFrame :
    (one block0).turn = .sequencer 0 ∧
    (∃ t, exec .begin (row block0 (.begin .b4)) = .next t) ∧
    (∃ t, exec .begin (row block0 (.begin .b7)) = .next t) ∧
    (∃ t, exec .end_ (row idle0 (.end_ .e2)) = .next t) ∧
    (∃ t, exec .end_ (row idle0 (.end_ .e9)) = .next t) ∧
    (∃ t, exec .begin (row block0 (.begin .b3f)) = .next t) ∧
    (∃ t, exec .end_ (row idle0 (.end_ .e8)) = .next t) ∧
    (∃ t, exec .getSerIndex (row idle0 .getSerIndex) = .next t) :=
  ⟨rfl, ⟨_, rfl⟩, ⟨_, rfl⟩, ⟨_, rfl⟩, ⟨_, rfl⟩, ⟨_, rfl⟩, ⟨_, rfl⟩, ⟨_, rfl⟩⟩

theorem witness_ConfigureFrame :
    (row ready0 (.configure .c8)).turn = .sequencer 0 ∧
    (row ready0 (.configure .c8)).block? 0 = some { ready0 with seq := some (.configure .c8) } ∧
    (∃ t, exec (.configure true) (row ready0 (.configure .c8)) = .next t) ∧
    (∃ t, exec (.configure true) { row ready0 (.configure .c9) with script := [failAnswer .host] } =
      .next t) ∧
    (∃ t, exec (.configure true) (row ready0 (.configure .c10)) = .next t) ∧
    ∃ t, exec (.configure true) { row ready0 (.configure .c14) with script := [timeoutAnswer .host] } =
      .next t :=
  ⟨rfl, rfl, ⟨_, rfl⟩, ⟨_, rfl⟩, ⟨_, rfl⟩, ⟨_, rfl⟩⟩

theorem witness_ReadFrame :
    (row running0 (.read .rd2)).turn = .sequencer 0 ∧
    (row running0 (.read .rd2)).block? 0 = some { running0 with seq := some (.read .rd2) } ∧
    ∃ t, exec .read (row running0 (.read .rd2)) = .next t :=
  ⟨rfl, rfl, ⟨_, rfl⟩⟩

theorem witness_ReadBufFrame :
    let b := buffering 0x20000000 0 2
    (row b (.readBuf .q5)).turn = .sequencer 0 ∧
    (row b (.readBuf .q5)).block? 0 = some { b with seq := some (.readBuf .q5) } ∧
    (∃ t, exec .readBuf (row b (.readBuf .q5)) = .next t) ∧
    ∃ t, exec .readBuf (row b (.readBuf .q4)) = .next t :=
  ⟨rfl, rfl, ⟨_, rfl⟩, ⟨_, rfl⟩⟩

/-! ### States that meet the invariants -/

theorem one_block? {b b' : Block} {en : Engine} {o : Option Nat} {j : Nat}
    (h : (one b en o).block? j = some b') : j = 0 ∧ b' = b := by
  simp only [one, State.block?, Table.at?] at h
  split at h
  · next hj => exact ⟨hj.symm, (Option.some.inj h).symm⟩
  · cases h

theorem one_owner (b : Block) (en : Engine) (e : Nat) :
    (one b en).owner e = if e = 0 then some 0 else none := by
  by_cases h : e = 0 <;> simp [one, State.owner, Table.at?, h, Ne.symm]

theorem one_pending (b : Block) {en : Engine} (h : en.pending = CtrlFields.all none) (e : Nat) :
    ((one b en).engine e).pending = CtrlFields.all none := by
  simp only [one, State.engine, Table.at?]
  split
  · exact h
  · rfl

theorem one_ownershipInv {b : Block} {en : Engine} (he : b.e = 0) (hl : b.lifecycle ≠ .uninit)
    (hr : ∀ pos, b.seq = some pos → b.rowOk Params.p0 pos = true) : (one b en).OwnershipInv := by
  refine ⟨fun id c hc => ?_, fun id hid => ⟨?_, fun e => ?_⟩⟩
  · obtain ⟨rfl, rfl⟩ := one_block? hc
    exact ⟨by simp [one_owner, he, hl], hr⟩
  · have h1 : (1 : Nat) ≤ id := hid
    simp only [one, State.block?, Table.at?]
    rw [if_neg (by omega)]
  · have h1 : (1 : Nat) ≤ id := hid
    rw [one_owner]; split
    · simp; omega
    · simp

theorem one_syncInv {b : Block} {en : Engine}
    (h : ∀ pos, b.seq = some pos → b.pendingAt pos = none)
    (hen : en.pending = CtrlFields.all none := by rfl) : (one b en).SyncInv := by
  refine ⟨fun id c pos f v hc hs hp => ?_, fun e hne => absurd (one_pending b hen e) hne⟩
  obtain ⟨rfl, rfl⟩ := one_block? hc
  rw [h pos hs] at hp; cases hp

/-- A block at a `SyncWait` row with just that row's write pending. -/
theorem one_syncInv_waiting {b : Block} {en : Engine} {pos : Position} {f : CtrlField} {v : Bool}
    (he : b.e = 0) (hs : b.seq = some pos) (hp : b.pendingAt pos = some (f, v))
    (hen : en.pending = (CtrlFields.all none).set f (some v)) (hb : en.syncbusy.get f = true) :
    (one b en).SyncInv := by
  refine ⟨fun id c pos' g w hc hs' hp' => ?_, fun e hne => ?_⟩
  · obtain ⟨rfl, rfl⟩ := one_block? hc
    cases hs.symm.trans hs'
    cases hp.symm.trans hp'
    have h : (one c en).engine c.e = en := by rw [he]; rfl
    rw [h]; exact ⟨hen, hb⟩
  · by_cases h : e = 0
    · exact ⟨0, b, pos, rfl, by rw [h, he], hs, by simp [hp]⟩
    · exact absurd (by simp [one, State.engine, Table.at?, h, Ne.symm, Engine.powerOn]) hne

theorem one_disableInv {b : Block} (he : b.e = 0) : (one b).DisableInv := by
  intro id c r hc _
  obtain ⟨rfl, rfl⟩ := one_block? hc
  have h : (one c).engine c.e = engine0 := by rw [he]; rfl
  rw [h]
  cases hm : c.m <;> cases hcc : c.c <;> simp [engine0, CtrlFields.all, Pair.get]

theorem one_idleInv {b : Block} (he : b.e = 0) (hb : b.cleanBusy = CtrlFields.all false) :
    (one b).IdleInv := by
  intro id c hc _
  obtain ⟨rfl, rfl⟩ := one_block? hc
  have h : (one c).engine c.e = engine0 := by rw [he]; rfl
  rw [h, hb]; exact ⟨rfl, rfl, rfl, fun _ => rfl⟩

/-- An `IDLE` block that waits at READ's poll meets every invariant, and steps. -/
theorem witness_invariants_idle :
    let s := row idle0 (.read .rd1)
    s.buf.wf = true ∧ s.OwnershipInv ∧ s.SyncInv ∧ s.DisableInv ∧ s.IdleInv ∧ s.ClockInv ∧
      step s = .next s.nextAnswer := by
  refine ⟨rfl, one_ownershipInv rfl (by decide) ?_, one_syncInv ?_, one_disableInv rfl,
    one_idleInv rfl rfl, ?_, rfl⟩
  · intro pos h; cases h; rfl
  · intro pos h; cases h; rfl
  · intro id c hc
    obtain ⟨rfl, rfl⟩ := one_block? hc
    refine ⟨fun h => (by cases h), fun _ => ⟨rfl, rfl, rfl⟩, by decide, fun r h => ?_⟩
    cases h

/-- A block at C11 on a disabled engine meets them too. -/
theorem witness_invariants_configuring :
    let s := row ready0 (.configure .c11)
    s.OwnershipInv ∧ s.SyncInv ∧ s.DisableInv ∧ s.IdleInv ∧ s.ClockInv := by
  refine ⟨one_ownershipInv rfl (by decide) ?_, one_syncInv ?_, one_disableInv rfl,
    one_idleInv rfl rfl, ?_⟩
  · intro pos h; cases h; rfl
  · intro pos h; cases h; rfl
  · intro id c hc
    obtain ⟨rfl, rfl⟩ := one_block? hc
    refine ⟨fun h => (by cases h), fun _ => ⟨rfl, rfl, rfl⟩, by decide, fun r h => ?_⟩
    exact fun _ => ⟨48, 1, 1024000, rfl, test_calc_16000⟩

/-- A `RUNNING` block's ClockConfig is the calculator's. -/
theorem witness_ClockConfigKept : (one running0).ClockInv := by
  intro id c hc
  obtain ⟨rfl, rfl⟩ := one_block? hc
  refine ⟨fun _ => ⟨16000, test_calc_16000⟩, fun h => (by cases h), by decide, fun r h => ?_⟩
  cases h

/-- Two blocks' hypotheses of exclusive ownership meet in one block out of `UNINIT`. -/
theorem witness_OwnershipKept :
    (one idle0).OwnershipInv ∧ (one idle0).block? 0 = some idle0 ∧ idle0.lifecycle ≠ .uninit :=
  ⟨one_ownershipInv rfl (by decide) (by intro pos h; cases h), rfl, by decide⟩

theorem witness_FaultsThatNeverArise :
    ((row ready0 (.configure .c11)).OwnershipInv ∧ (row ready0 (.configure .c11)).SyncInv ∧
      (row ready0 (.configure .c11)).DisableInv) ∧
    ((checked (one running0)).OwnershipInv ∧ (checked (one running0)).params.checkedRead = true) := by
  refine ⟨⟨witness_invariants_configuring.1, witness_invariants_configuring.2.1,
    witness_invariants_configuring.2.2.1⟩, ?_, rfl⟩
  have h : (one running0).OwnershipInv :=
    one_ownershipInv rfl (by decide) (by intro pos h; cases h)
  refine ⟨fun id b hb => ⟨(h.1 id b hb).1, fun pos hp => ?_⟩, h.2⟩
  obtain ⟨rfl, rfl⟩ := one_block? (en := engine0) (o := some 0) hb
  cases hp

theorem witness_ReprogrammingSilencesProducer :
    let s := { row ready0 (.configure .c11) with turn := .producer 0 .u0 }
    s.DisableInv ∧ s.turn = .producer 0 .u0 ∧
      s.block? 0 = some { ready0 with seq := some (.configure .c11) } ∧
      4 ≤ ConfigureRow.c4.index ∧ ConfigureRow.c18.index ≤ 18 :=
  ⟨one_disableInv (b := { ready0 with seq := some (.configure .c11) }) rfl, rfl, rfl, by decide,
    by decide⟩

theorem witness_IdleReadHangs :
    let s := row idle0 (.read .rd1)
    s.OwnershipInv ∧ s.SyncInv ∧ s.IdleInv ∧
      s.block? 0 = some { idle0 with seq := some (.read .rd1) } ∧ idle0.lifecycle = .idle ∧
      step s = .next s.nextAnswer :=
  ⟨witness_invariants_idle.2.1, witness_invariants_idle.2.2.1, witness_invariants_idle.2.2.2.2.1, rfl,
    rfl, rfl⟩

/-- A step for the rules about all steps: with fresh identifiers, and a `RESULT` and `ERRCODE` that
change. -/
theorem witness_StatusWrittenOnlyByFinish :
    (∃ t, step (row idle0 (.begin .b0)) = .next t ∧
      (t.block? 0).map Block.errCode = some .state ∧ idle0.errCode ≠ .state) ∧
    ∀ id, (row idle0 (.begin .b0)).nextId ≤ id → (row idle0 (.begin .b0)).block? id = none :=
  ⟨⟨_, rfl, by decide, by decide⟩, fun id hid =>
    ((one_ownershipInv (b := { idle0 with seq := some (.begin .b0) }) (en := engine0) rfl (by decide)
      (by intro pos h; cases h; rfl)).2 id hid).1⟩

theorem witness_BindingNeverChanges :
    (∃ t, step (row idle0 (.begin .b0)) = .next t) ∧
    ∀ id, (row idle0 (.begin .b0)).nextId ≤ id → (row idle0 (.begin .b0)).block? id = none :=
  ⟨⟨_, rfl⟩, witness_StatusWrittenOnlyByFinish.2⟩

theorem witness_OnlyEndLeavesIndeterminate :
    let s := row lost0 (.end_ .e9)
    (∃ t, step s = .next t ∧ (t.block? 0).map Block.lifecycle = some .uninit) ∧ s.OwnershipInv ∧
      s.block? 0 = some { lost0 with seq := some (.end_ .e9) } ∧ lost0.lifecycle = .indeterminate :=
  ⟨⟨_, rfl, by decide⟩,
    one_ownershipInv rfl (by decide) (by intro pos h; cases h; rfl), rfl, rfl⟩

theorem witness_OnlyBeginAndEndChangeOwner :
    ∃ t, step (row block0 (.begin .b1) engine0 none) = .next t ∧
      t.owner 0 ≠ (row block0 (.begin .b1) engine0 none).owner 0 := ⟨_, rfl, by decide⟩

theorem witness_HostNeverReachesEngine :
    (hostDoes idle0 (.wr 0 32 0x00 1)).turn = .host ∧
      ∃ t, step (hostDoes idle0 (.wr 0 32 0x00 1)) = .next t := ⟨rfl, _, rfl⟩

/-- `engineReady` with the write `SEREN[0] <- 0` pending. -/
def engineDisabling : Engine := engineReady.wrCtrl (.seren .u0) false

theorem witness_ReadyFlagChangesOnlyByNamedEvents :
    ((let s := { fed (one running0 engineActive) with turn := .producer 0 .u0 }
      ∃ t, step s = .next t ∧ (s.engine 0).rxrdy.get .u0 = false ∧
        (t.engine 0).rxrdy.get .u0 = true) ∧
      (let s := { row block0 (.begin .b5) with
          script := [{ timeoutAnswer .host with engine := engineReady }] }
       ∃ t, step s = .next t ∧ (s.engine 0).rxrdy.get .u0 = false ∧
        (t.engine 0).rxrdy.get .u0 = true)) ∧
    (let s := row running0 (.configure .c3) engineDisabling
     s.SyncInv ∧ ∃ t, step s = .next t ∧ (s.engine 0).rxrdy.get .u0 = true ∧
      (t.engine 0).rxrdy.get .u0 = false) ∧
    (let s := row block0 (.begin .b5) (engineReady.wrCtrl .swrst true)
     s.SyncInv ∧ ∃ t, step s = .next t ∧ (s.engine 0).rxrdy.get .u0 = true ∧
      (t.engine 0).rxrdy.get .u0 = false) ∧
    (let s := row running0 (.read .rd2) engineReady
     s.SyncInv ∧ ∃ t, step s = .next t ∧ (s.engine 0).rxrdy.get .u0 = true ∧
      (t.engine 0).rxrdy.get .u0 = false) := by
  refine ⟨⟨⟨_, rfl, by decide, by decide⟩, _, rfl, by decide, by decide⟩,
    ⟨?_, _, rfl, by decide, by decide⟩, ⟨?_, _, rfl, by decide, by decide⟩,
    ⟨?_, _, rfl, by decide, by decide⟩⟩
  · exact one_syncInv_waiting rfl rfl rfl (by decide) (by decide)
  · exact one_syncInv_waiting rfl rfl rfl (by decide) (by decide)
  · exact one_syncInv (by intro pos h; cases h; rfl) (by decide)

theorem witness_ReacquireCycle :
    let s := withOks (one block0 engine0 none) 32
    s.block? 0 = some block0 ∧ block0.lifecycle = .uninit ∧ s.owner block0.e = none ∧
      s.turn = .sequencer 0 ∧ s.okScript 0 32 :=
  ⟨rfl, rfl, by decide, rfl, withOks_okScript ..⟩

end Sys2Proof.Tests
end

section
/-! The producer's turn (R155), READ's state check (R8), reset and CONSTRUCT (R47, R48, R109): the rules
about them, and the obligations that follow. -/

namespace Sys2Proof.Machine

/-! ## The producer (R155) -/

/-- A producer's turn always completes, and is its own step. -/
theorem step_of_producer {s : State} {e : Nat} {m : UnitIx} (h : s.turn = .producer e m) :
    step s = .next (producerStep e m s).nextAnswer := by
  unfold step; rw [h]; rfl

theorem producerStep_of_active {s : State} {e : Nat} {m : UnitIx} (he : e < s.params.nEngines)
    (ha : s.rxActive e m = true) : producerStep e m s = s.deliver e m s.answer.word :=
  if_pos ⟨he, ha⟩

theorem producerStep_of_not_active {s : State} {e : Nat} {m : UnitIx}
    (h : s.params.nEngines ≤ e ∨ s.rxActive e m = false) : producerStep e m s = s := by
  refine if_neg fun ⟨he, ha⟩ => ?_
  rcases h with h | h
  · omega
  · rw [h] at ha; cases ha

@[simp] theorem State.engine_deliver_self (s : State) (e : Nat) (m : UnitIx) (w : Word) :
    (s.deliver e m w).engine e =
      { s.engine e with data := (s.engine e).data.set m w,
                        rxrdy := (s.engine e).rxrdy.set m true } := by
  simp [State.deliver]

theorem State.EngineOnly.sameMemory {s t : State} {e : Nat} (h : s.EngineOnly t e) :
    s.sameMemory t := fun a => by
  simp only [State.readByte, h.buf]

theorem State.EngineOnly.sameClocks {s t : State} {e : Nat} (h : s.EngineOnly t e) :
    s.sameClocks t :=
  ⟨fun k => by simp only [State.gen, h.gens],
   fun j c => by simp only [State.route, State.routesOf, h.routes, h.params]⟩

/-- Settles O37, by the two cases of the producer's guard and the frame of a delivery. -/
theorem producerDeliversWhileActive : Obligations.ProducerDeliversWhileActive := by
  intro s e m hturn
  refine ⟨producerStep e m s, step_of_producer hturn, ?_, producerStep_of_not_active⟩
  rintro ⟨he, ha⟩
  rw [producerStep_of_active he ha]
  have hframe := s.deliver_engineOnly e m s.answer.word
  exact ⟨s.engine_deliver_self e m _, hframe.engine, hframe.blocks, hframe.owners,
    hframe.sameMemory, hframe.sameClocks, rfl⟩

/-! ## READ's first row (R146) -/

theorem readRefused_iff (s : State) (b : Block) :
    readRefused s b = true ↔ s.params.checkedRead = true ∧ b.lifecycle ≠ .running := by
  simp [readRefused]

/-- RD0 (R146): the state check, and then the poll. -/
theorem exec_read_rd0 {s : State} {id : Nat} {b : Block} (h : s.atRow id b (.read .rd0)) :
    exec .read s = .next (s.setBlock id
      (if readRefused s b then b.finish .state else b.goto (.read .rd1))) :=
  exec_row h rfl

/-- Settles O29, by the two outcomes of RD0's state check. -/
theorem readChecksStateOnlyIfAsked : Obligations.ReadChecksStateOnlyIfAsked := by
  intro s id b hrow
  rw [exec_read_rd0 hrow]
  constructor
  · intro h
    rw [if_pos ((readRefused_iff s b).mpr h)]
    rfl
  · intro h
    have hpass : ¬ readRefused s b = true := by
      rw [readRefused_iff]
      rintro ⟨hc, hl⟩
      rcases h with h | h
      · rw [h] at hc; cases hc
      · exact hl h
    rw [if_neg hpass]
    rfl

/-! ## Construction and reset (R47, R48, R109) -/

/-- The values that a block has at construction, whatever its pins and generator (R20, R47). -/
structure Block.Fresh (b : Block) : Prop where
  lifecycle : b.lifecycle = .uninit
  cfgValid : b.cfgValid = false
  cfgG : b.cfgG = 0
  cfgS : b.cfgS = 0
  cfgF : b.cfgF = 0
  chMode : b.chMode = .mono
  seq : b.seq = none
  cmd : b.cmd = 0
  argRate : b.argRate = 0
  argCount : b.argCount = 0
  argBuf : b.argBuf = 0
  resWord : b.resWord = 0
  status : b.status = 0
  cfgGdivReg : b.cfgGdivReg = 0
  cfgSdivReg : b.cfgSdivReg = 0
  cfgFbckReg : b.cfgFbckReg = 0

/-- `STATUS` of a block in `UNINIT` that has had no command: every field is 0 (R27). -/
theorem Block.construct_status (p : Params) (id cp dp : Nat) (k : BitVec 8) :
    (Block.construct p id cp dp k).status = 0 := by
  simp [Block.status, Block.construct, ChMode.toBit, Lifecycle.toBits, ErrCode.toBits, Block.busy]

theorem Block.construct_fresh (p : Params) (id cp dp : Nat) (k : BitVec 8) :
    (Block.construct p id cp dp k).Fresh where
  lifecycle := rfl
  cfgValid := rfl
  cfgG := rfl
  cfgS := rfl
  cfgF := rfl
  chMode := rfl
  seq := rfl
  cmd := rfl
  argRate := rfl
  argCount := rfl
  argBuf := rfl
  resWord := rfl
  status := Block.construct_status p id cp dp k
  cfgGdivReg := rfl
  cfgSdivReg := rfl
  cfgFbckReg := rfl

/-- After reset the only block is the first one, just constructed (log entry 5). -/
theorem State.block?_reset {id : Nat} {b : Block} (h : State.reset.block? id = some b) :
    id = 0 ∧ b.Fresh := by
  simp only [State.block?, State.reset, Table.at?] at h
  split at h
  · next hid => cases h; exact ⟨hid.symm, Block.construct_fresh ..⟩
  · cases h

@[simp] theorem State.owner_reset (e : Nat) : State.reset.owner e = none := rfl

/-- No serializer of an engine that is not enabled is active (R43). -/
theorem State.rxActive_of_disabled {s : State} {e : Nat} (h : (s.engine e).ctrl.enable = false)
    (m : UnitIx) : s.rxActive e m = false := by
  simp [State.rxActive, h]

/-- CONSTRUCT as the host's step. -/
theorem step_construct {s : State} {cp dp : Nat} {k : BitVec 8} {rest : List HostOp}
    (ht : s.turn = .host) (hp : s.program = .construct cp dp k :: rest) :
    step s = .next (State.construct { s with program := rest } cp dp k).nextAnswer := by
  rw [step_of_host ht]
  simp only [hostStep, hp, advance]

theorem State.block?_construct (s : State) (cp dp : Nat) (k : BitVec 8) (j : Nat) :
    (s.construct cp dp k).block? j =
      if j = s.nextId then some (Block.construct s.params s.nextId cp dp k) else s.block? j :=
  Table.at?_put _ _ _ _

theorem State.reset_ownershipInv : State.reset.OwnershipInv := by
  refine ⟨fun id b hb => ?_, fun id hid => ⟨?_, fun e => by simp⟩⟩
  · obtain ⟨-, hf⟩ := State.block?_reset hb
    simp [hf.lifecycle, hf.seq]
  · rw [Option.eq_none_iff_forall_ne_some]
    intro b hb
    obtain ⟨rfl, -⟩ := State.block?_reset hb
    exact absurd hid (by decide)

theorem State.reset_syncInv : State.reset.SyncInv := by
  refine ⟨fun id b pos f v hb hpos => ?_, fun e he => absurd rfl he⟩
  rw [(State.block?_reset hb).2.seq] at hpos
  cases hpos

theorem State.reset_disableInv : State.reset.DisableInv := by
  intro id b row hb hpos
  rw [(State.block?_reset hb).2.seq] at hpos
  cases hpos

theorem Block.Fresh.engineClean {b : Block} (h : b.Fresh) : b.engineClean = false := by
  simp [Block.engineClean, h.lifecycle, h.seq]

theorem State.reset_idleInv : State.reset.IdleInv := by
  intro id b hb hclean
  rw [(State.block?_reset hb).2.engineClean] at hclean
  cases hclean

theorem State.reset_clockInv : State.reset.ClockInv := by
  intro id b hb
  obtain ⟨-, hf⟩ := State.block?_reset hb
  simp [hf.lifecycle, hf.cfgValid, hf.cfgG, hf.cfgS, hf.cfgF, hf.seq]

/-- Settles O43: the one block is fresh, so no invariant asks anything of it, and no engine is owned or
has a write pending. -/
theorem resetMeetsInvariants : Obligations.ResetMeetsInvariants :=
  ⟨rfl, Config.params_legal, State.reset_ownershipInv, State.reset_syncInv, State.reset_disableInv,
    State.reset_idleInv, State.reset_clockInv⟩

/-- Settles O42, by the values of a fresh block and of an engine at power-on, and by the frame of
CONSTRUCT. -/
theorem resetValues : Obligations.ResetValues := by
  refine ⟨⟨_, rfl, ?_⟩, fun e => ⟨rfl, rfl, rfl, rfl⟩,
    ⟨rfl, fun e m => State.rxActive_of_disabled rfl m⟩, fun s cp dp k rest ht hp => ?_⟩
  · have hf := Block.construct_fresh Config.params 0 Config.clockPin Config.dataPin 3
    exact ⟨hf.lifecycle, hf.cfgValid, hf.cfgG, hf.cfgS, hf.cfgF, hf.chMode, hf.seq, hf.cmd, hf.argRate,
      hf.argCount, hf.argBuf, hf.resWord, hf.status, hf.cfgGdivReg, hf.cfgSdivReg, hf.cfgFbckReg, rfl⟩
  · have hf := Block.construct_fresh s.params s.nextId cp dp k
    refine ⟨State.construct { s with program := rest } cp dp k,
      Block.construct s.params s.nextId cp dp k, step_construct ht hp, ?_, rfl, rfl, rfl, rfl, rfl,
      fun hlegal => s.params.unitMap_lt hlegal cp dp,
      hf.lifecycle, hf.cfgValid, hf.cfgG, hf.cfgS, hf.cfgF, hf.chMode, hf.seq, hf.cmd, hf.argRate,
      hf.argCount, hf.argBuf, hf.resWord, hf.status, hf.cfgGdivReg, hf.cfgSdivReg, hf.cfgFbckReg, rfl, fun j hj => ?_⟩
    · rw [State.block?_construct, if_pos rfl]
    · rw [State.block?_construct, if_neg hj]; rfl

end Sys2Proof.Machine
end

section
/-! Rows as actions: what the row at a position does to everything that is not its block, said once, and what
each action leaves alone; then the same for the host's steps. The invariants and the frames cite these. -/

namespace Sys2Proof.Machine

/-! ## The action of a row -/

/-- What a row does outside its own block. -/
inductive RowAction where
  /-- Nothing. -/
  | idle
  /-- The owner of the block's engine becomes `v`. -/
  | own (v : Option Nat)
  /-- A `CTRL` write. -/
  | wrCtrl (f : CtrlField) (v : Bool)
  /-- A `SyncWait`. -/
  | sync (f : CtrlField)
  /-- A collaborator call. -/
  | call (op : CallOp)
  /-- A collaborator call, and the engine released. -/
  | callRelease (op : CallOp)
  /-- A poll that reads 1. -/
  | poll
  /-- A data read. -/
  | rdData
  /-- A divisor write. -/
  | wrClk (v : Nat)
  /-- A format write. -/
  | wrFmt (v : FrameFormat)
  /-- A store to host memory. -/
  | store

/-- The state after an action of block `b`. -/
def RowAction.apply (b : Block) (s : State) : RowAction → State
  | .idle => s
  | .own v => s.own b.e v
  | .wrCtrl f v => s.wrCtrl b.e f v
  | .sync f => s.afterSync b.e f
  | .call op => s.afterCall op
  | .callRelease op => (s.afterCall op).own b.e none
  | .poll => s.log (.rdReady b.e b.m true)
  | .rdData => s.rdData b.e b.m
  | .wrClk v => s.wrClk b.e b.c v
  | .wrFmt v => s.wrFmt b.e b.m v
  | .store => s.memWrite b.storeAddr b.work.w

/-- The call that an action makes. -/
def RowAction.callOp : RowAction → Option CallOp
  | .call op | .callRelease op => some op
  | _ => none

/-- The action of a row that names the calculator's triple: nothing where there is none (log entry 12). -/
def CalcResult.actionOf (r : CalcResult) (onOk : Nat → Nat → RowAction) : RowAction :=
  match r with
  | .ok g q _ => onOk g q
  | .fail _ => .idle

/-- The action of the row at a position, where the row is taken (R110, R118, R127, R146, R149); `st` is the
stereo flag of a CONFIGURE. -/
def Block.actionAt (b : Block) (s : State) (id : Nat) (st : Bool) : Position → RowAction
  | .begin .b1 => if s.owner b.e ≠ none then .idle else .own (some id)
  | .begin .b2 =>
    s.answer.call.pick (.call (.pinMux b.clockPin (.clk b.e b.c)))
      (.callRelease (.pinMux b.clockPin (.clk b.e b.c)))
  | .begin .b3 => .call (.pinMux b.dataPin (.data b.e b.m))
  | .begin .b3f => .callRelease (.pinRelease b.clockPin)
  | .end_ .e7 => .call (.pinRelease b.dataPin)
  | .end_ .e8 => .call (.pinRelease b.clockPin)
  | .end_ .e9 => .own none
  | .configure .c8 => b.work.r.actionOf fun g _ => .call (.genConfigure b.k.toNat .ref g)
  | .configure .c9 => .call (.genEnable b.k.toNat)
  | .configure .c10 => .call (.genConnect b.e b.c b.k.toNat)
  | .configure .c11 => b.work.r.actionOf fun _ q => .wrClk q
  | .configure .c12 => .wrFmt (frameFormat s.params st b.c)
  | .read .rd1 | .readBuf .q3 => .poll
  | .readBuf .q5 => .store
  | pos =>
    match b.effectAt pos with
    | .wr f v => .wrCtrl f v
    | .sync f => .sync f
    | .clr => .rdData
    | _ => .idle

/-- The rows that can answer and change nothing: the polls, the store, and the rows of CONFIGURE that name the
calculator's triple (log entries 11 and 12). -/
def Position.mayHold : Position → Bool
  | .read .rd1 | .readBuf .q3 | .readBuf .q5 | .configure .c8 | .configure .c11 | .configure .c19 => true
  | _ => false

/-- `u` is what the row at `pos` makes of `s` as an answer: the row holds, or it is its action, and the block
moves on. -/
def Block.Takes (b : Block) (s u : State) (id : Nat) (st : Bool) (pos : Position) : Prop :=
  (u = s ∧ pos.mayHold = true) ∨ ∃ b', u = ((b.actionAt s id st pos).apply b s).setBlock id b'

/-- A row of CONFIGURE that answers either holds or is its action. -/
theorem configureRow_takes {s u : State} {id : Nat} {b : Block} {row : ConfigureRow} {st : Bool}
    (h : configureRow st row id b s = .next u) : b.Takes s u id st (.configure row) := by
  cases row <;> simp only [configureRow] at h
  case c1 =>
    cases h
    unfold calcRow
    split <;> exact .inr ⟨_, rfl⟩
  case c8 | c11 | c19 =>
    cases hr : b.work.r <;> simp only [hr, clkRow] at h
    case fail => cases h; exact .inl ⟨rfl, rfl⟩
    case ok =>
      (try split at h) <;> cases h
      exact .inr ⟨_, by simp only [Block.actionAt, hr]; rfl⟩
  case c12 =>
    unfold fmtRow at h
    split at h <;> cases h
    exact .inr ⟨_, rfl⟩
  all_goals
    cases h
    exact .inr ⟨_, rfl⟩

/-- A row that answers either holds or is its action. -/
theorem rowStep_takes {s u : State} {id : Nat} {b : Block} {pos : Position}
    (h : rowStep pos id b s = .next u) : b.Takes s u id b.work.st pos := by
  cases pos with
  | begin row =>
    cases h
    right
    cases row <;> simp only [beginRow]
    case b1 =>
      split
      · next ho => exact ⟨_, by simp only [Block.actionAt, if_pos ho]; rfl⟩
      · next ho => exact ⟨_, by simp only [Block.actionAt, if_neg ho]; rfl⟩
    case b2 =>
      simp only [State.callOutcome_pinMux, Block.actionAt]
      cases s.answer.call <;> exact ⟨_, rfl⟩
    all_goals exact ⟨_, rfl⟩
  | end_ row => cases h; cases row <;> exact .inr ⟨_, rfl⟩
  | configure row => exact configureRow_takes h
  | getSerIndex => cases h; exact .inr ⟨_, rfl⟩
  | illegal => cases h; exact .inr ⟨_, rfl⟩
  | read row =>
    cases row <;> simp only [rowStep, readRow, State.pollRow] at h
    case rd1 =>
      split at h
      · split at h <;> cases h
        exact .inr ⟨_, rfl⟩
      · cases h; exact .inl ⟨rfl, rfl⟩
    all_goals cases h; exact .inr ⟨_, rfl⟩
  | readBuf row =>
    cases row <;> simp only [rowStep, readBufRow, State.pollRow] at h
    case q2 => split at h <;> cases h; exact .inr ⟨_, rfl⟩
    case q3 =>
      split at h
      · split at h <;> cases h
        exact .inr ⟨_, rfl⟩
      · cases h; exact .inl ⟨rfl, rfl⟩
    case q5 =>
      cases h
      unfold storeRow
      split
      · exact .inr ⟨_, rfl⟩
      · exact .inl ⟨rfl, rfl⟩
    all_goals cases h; exact .inr ⟨_, rfl⟩

end Sys2Proof.Machine
end

section
namespace Sys2Proof.Machine

/-! ## What an action leaves alone -/

theorem RowAction.callOp_actionOf {r : CalcResult} {f : Nat → Nat → RowAction} {op : CallOp}
    (h : (r.actionOf f).callOp = some op) : ∃ g q, (f g q).callOp = some op := by
  cases r with
  | ok g q _ => exact ⟨g, q, h⟩
  | fail _ => cases h

/-- The rows that call a generator's collaborator: C8, C9 and C10, each on the block's own generator and
clock unit (R127, R178). -/
def Block.genCall (b : Block) : ConfigureRow → CallOp → Prop
  | .c8, op => ∃ g, op = .genConfigure b.k.toNat .ref g
  | .c9, op => op = .genEnable b.k.toNat
  | .c10, op => op = .genConnect b.e b.c b.k.toNat
  | _, _ => False

/-- A row's call is a pin call, or CONFIGURE's call on the block's own generator and clock unit. -/
theorem Block.actionAt_callOp {b : Block} {s : State} {id : Nat} {st : Bool} {pos : Position} {op : CallOp}
    (h : (b.actionAt s id st pos).callOp = some op) :
    (∃ pin role, op = .pinMux pin role) ∨ (∃ pin, op = .pinRelease pin) ∨
      ∃ row, pos = .configure row ∧ b.genCall row op := by
  cases pos with
  | begin row =>
    cases row <;> simp only [Block.actionAt] at h
    case b1 => split at h <;> cases h
    case b2 => cases hc : s.answer.call <;> rw [hc] at h <;> cases h <;> exact .inl ⟨_, _, rfl⟩
    case b3 => cases h; exact .inl ⟨_, _, rfl⟩
    case b3f => cases h; exact .inr (.inl ⟨_, rfl⟩)
    all_goals cases h
  | end_ row =>
    cases row <;> simp only [Block.actionAt] at h
    case e7 | e8 => cases h; exact .inr (.inl ⟨_, rfl⟩)
    all_goals cases h
  | configure row =>
    refine .inr (.inr ⟨row, rfl, ?_⟩)
    cases row <;> simp only [Block.actionAt] at h
    case c8 =>
      obtain ⟨g, _, hg⟩ := RowAction.callOp_actionOf h
      cases hg
      exact ⟨g, rfl⟩
    case c9 | c10 => cases h; rfl
    case c11 => obtain ⟨_, _, hg⟩ := RowAction.callOp_actionOf h; cases hg
    all_goals cases h
  | read row => cases row <;> cases h
  | readBuf row => cases row <;> cases h
  | getSerIndex => cases h
  | illegal => cases h

theorem State.EngineOnly.block? {s t : State} {e : Nat} (h : s.EngineOnly t e) (j : Nat) :
    t.block? j = s.block? j := by
  simp only [State.block?, h.blocks]

theorem State.EngineOnly.owner {s t : State} {e : Nat} (h : s.EngineOnly t e) (j : Nat) :
    t.owner j = s.owner j := by
  simp only [State.owner, h.owners]

theorem State.EngineOnly.sameElsewhere {s t : State} {e : Nat} (h : s.EngineOnly t e) (id : Nat) :
    s.sameElsewhere t id e :=
  ⟨h.params, h.nextId, h.admitted, h.program, h.received, h.turn, h.script, h.drawn,
    fun j _ => h.block? j, fun j hj => ⟨h.engine j hj, h.owner j, h.sameClocks.2 j⟩⟩

theorem State.CallOnly.sameElsewhere {s t : State} (h : s.CallOnly t) (id e : Nat)
    (hr : ∀ j, j ≠ e → ∀ c, t.route j c = s.route j c) : s.sameElsewhere t id e :=
  ⟨h.params, h.nextId, h.admitted, h.program, h.received, h.turn, h.script, h.drawn,
    fun j _ => by simp only [State.block?, h.blocks],
    fun j hj => ⟨by simp only [State.engine, h.engines], by simp only [State.owner, h.owners], hr j hj⟩⟩

theorem State.sameElsewhere_refl (s : State) (id e : Nat) : s.sameElsewhere s id e :=
  ⟨rfl, rfl, rfl, rfl, rfl, rfl, rfl, rfl, fun _ _ => rfl, fun _ _ => ⟨rfl, rfl, fun _ => rfl⟩⟩

theorem State.sameElsewhere.setBlock {s t : State} {id e : Nat} (h : s.sameElsewhere t id e) (b : Block) :
    s.sameElsewhere (t.setBlock id b) id e := by
  obtain ⟨h1, h2, h3, h4, h5, h6, h7, h8, hb, he⟩ := h
  refine ⟨h1, h2, h3, h4, h5, h6, h7, h8, fun j hj => ?_, he⟩
  rw [State.block?_setBlock, if_neg hj, hb j hj]

theorem State.sameElsewhere.own {s t : State} {id e : Nat} (h : s.sameElsewhere t id e) (v : Option Nat) :
    s.sameElsewhere (t.own e v) id e := by
  obtain ⟨h1, h2, h3, h4, h5, h6, h7, h8, hb, he⟩ := h
  refine ⟨h1, h2, h3, h4, h5, h6, h7, h8, hb, fun j hj => ⟨(he j hj).1, ?_, (he j hj).2.2⟩⟩
  rw [State.own_eq, State.owner_log, State.owner_setOwner, if_neg hj, (he j hj).2.1]

/-- An action stays within the block's engine, unless its call connects another one. -/
theorem RowAction.apply_sameElsewhere (b : Block) (s : State) (id : Nat) (a : RowAction)
    (ha : ∀ e c k, a.callOp = some (.genConnect e c k) → e = b.e) :
    s.sameElsewhere (a.apply b s) id b.e := by
  have hcall : ∀ op, a.callOp = some op → s.sameElsewhere (s.afterCall op) id b.e := fun op hop =>
    (s.afterCall_callOnly op).sameElsewhere id b.e fun j hj c =>
      s.afterCall_route op j c fun k hk => hj (ha j c k (hk ▸ hop))
  cases a with
  | idle => exact s.sameElsewhere_refl id b.e
  | own v => exact (s.sameElsewhere_refl id b.e).own v
  | wrCtrl f v => exact (s.wrCtrl_engineOnly b.e f v).sameElsewhere id
  | sync f => exact (s.afterSync_engineOnly b.e f).sameElsewhere id
  | call op => exact hcall op rfl
  | callRelease op => exact (hcall op rfl).own none
  | poll => exact s.sameElsewhere_refl id b.e
  | rdData => exact (s.rdData_engineOnly b.e b.m).sameElsewhere id
  | wrClk v => exact (s.wrClk_engineOnly b.e b.c v).sameElsewhere id
  | wrFmt v => exact (s.wrFmt_engineOnly b.e b.m v).sameElsewhere id
  | store => exact s.sameElsewhere_refl id b.e

@[simp] theorem State.readByte_afterCall (s : State) (op : CallOp) (x : Nat) :
    (s.afterCall op).readByte x = s.readByte x := by
  simp only [State.readByte, (s.afterCall_callOnly op).buf]

/-- Only a store changes host memory. -/
theorem RowAction.apply_readByte (b : Block) (s : State) {a : RowAction} (ha : a ≠ .store) (x : Nat) :
    (a.apply b s).readByte x = s.readByte x := by
  cases a with
  | store => exact absurd rfl ha
  | call op => exact s.readByte_afterCall op x
  | callRelease op => exact s.readByte_afterCall op x
  | _ => rfl

/-- Only a call changes a generator or a route. -/
theorem RowAction.apply_sameClocks (b : Block) (s : State) {a : RowAction} (ha : a.callOp = none) :
    s.sameClocks (a.apply b s) := by
  cases a with
  | call op => cases ha
  | callRelease op => cases ha
  | _ => exact ⟨fun _ => rfl, fun _ _ => rfl⟩

theorem RowAction.apply_clocks_of_call (b : Block) (s : State) {a : RowAction} {op : CallOp}
    (ha : a.callOp = some op) :
    (∀ k, (a.apply b s).gen k = (s.afterCall op).gen k) ∧
      ∀ e c, (a.apply b s).route e c = (s.afterCall op).route e c := by
  cases a with
  | call op' => cases ha; exact ⟨fun _ => rfl, fun _ _ => rfl⟩
  | callRelease op' => cases ha; exact ⟨fun _ => rfl, fun _ _ => rfl⟩
  | _ => cases ha

/-- The owner of the block's engine after an action. -/
def RowAction.ownerAfter (b : Block) (s : State) : RowAction → Option Nat
  | .own v => v
  | .callRelease _ => none
  | _ => s.owner b.e

theorem RowAction.apply_owner (b : Block) (s : State) (a : RowAction) (j : Nat) :
    (a.apply b s).owner j = if j = b.e then a.ownerAfter b s else s.owner j := by
  have hsame : s.owner j = if j = b.e then s.owner b.e else s.owner j := by
    split
    · next h => rw [h]
    · rfl
  cases a with
  | own v => exact s.owner_setOwner b.e j v
  | callRelease op =>
    simp only [RowAction.apply, State.own_eq, State.owner_log, State.owner_setOwner, State.afterCall_owner]
    rfl
  | call op => rw [RowAction.apply, State.afterCall_owner]; exact hsame
  | _ => exact hsame

/-! ## What a row leaves alone -/

theorem Block.actionAt_eq_store {b : Block} {s : State} {id : Nat} {st : Bool} {pos : Position}
    (h : b.actionAt s id st pos = .store) : pos = .readBuf .q5 := by
  cases pos with
  | begin row =>
    cases row <;> simp only [Block.actionAt] at h
    case b1 => split at h <;> cases h
    case b2 => cases hc : s.answer.call <;> rw [hc] at h <;> cases h
    all_goals cases h
  | end_ row => cases row <;> cases h
  | configure row =>
    cases row <;> simp only [Block.actionAt] at h
    case c8 | c11 => cases hr : b.work.r <;> rw [hr] at h <;> cases h
    all_goals cases h
  | read row => cases row <;> cases h
  | readBuf row =>
    cases row
    case q5 => rfl
    all_goals cases h
  | getSerIndex => cases h
  | illegal => cases h
end Sys2Proof.Machine
end

section
namespace Sys2Proof.Machine

/-! ## How a row moves its block -/

/-- The rows that a row can go to (R110, R118, R127, R146, R149). -/
def Position.successors : Position → List Position
  | .begin .b0 => [.begin .b1] | .begin .b1 => [.begin .b2] | .begin .b2 => [.begin .b3]
  | .begin .b3 => [.begin .b4, .begin .b3f] | .begin .b3f => [] | .begin .b4 => [.begin .b5]
  | .begin .b5 => [.begin .b6] | .begin .b6 => [.begin .b7] | .begin .b7 => [.begin .b8]
  | .begin .b8 => [.begin .b9] | .begin .b9 => [.begin .b10] | .begin .b10 => []
  | .end_ .e0 => [.end_ .e1] | .end_ .e1 => [.end_ .e2] | .end_ .e2 => [.end_ .e3]
  | .end_ .e3 => [.end_ .e4] | .end_ .e4 => [.end_ .e5] | .end_ .e5 => [.end_ .e6]
  | .end_ .e6 => [.end_ .e7] | .end_ .e7 => [.end_ .e8] | .end_ .e8 => [.end_ .e9] | .end_ .e9 => []
  | .configure .c0 => [.configure .c1] | .configure .c1 => [.configure .c2]
  | .configure .c2 => [.configure .c3] | .configure .c3 => [.configure .c4]
  | .configure .c4 => [.configure .c5] | .configure .c5 => [.configure .c6]
  | .configure .c6 => [.configure .c7] | .configure .c7 => [.configure .c8]
  | .configure .c8 => [.configure .c9] | .configure .c9 => [.configure .c10]
  | .configure .c10 => [.configure .c11] | .configure .c11 => [.configure .c12]
  | .configure .c12 => [.configure .c13] | .configure .c13 => [.configure .c14]
  | .configure .c14 => [.configure .c15] | .configure .c15 => [.configure .c16]
  | .configure .c16 => [.configure .c17] | .configure .c17 => [.configure .c18]
  | .configure .c18 => [.configure .c19] | .configure .c19 => []
  | .read .rd0 => [.read .rd1] | .read .rd1 => [.read .rd2] | .read .rd2 => []
  | .readBuf .q0 => [.readBuf .q1] | .readBuf .q1 => [.readBuf .q2] | .readBuf .q2 => [.readBuf .q3]
  | .readBuf .q3 => [.readBuf .q4] | .readBuf .q4 => [.readBuf .q5] | .readBuf .q5 => [.readBuf .q6]
  | .readBuf .q6 => [.readBuf .q3]
  | .getSerIndex => [] | .illegal => []

/-- The rows that can end in `fatal()`: the waits of BEGIN and CONFIGURE, and CONFIGURE's calls (R136). -/
def Position.mayFail : Position → Bool
  | .begin .b5 | .begin .b7 | .begin .b9 | .configure .c3 | .configure .c5 | .configure .c7 | .configure .c8
  | .configure .c9 | .configure .c10 | .configure .c14 | .configure .c16 | .configure .c18 => true
  | _ => false

/-- The rows that can finish without a commit: the checks, the undoing of BEGIN's pins, the last rows of the
reads, and the commands of one row (R80). -/
def Position.mayFinish : Position → Bool
  | .begin .b0 | .begin .b1 | .begin .b2 | .begin .b3f | .end_ .e0 | .configure .c0 | .configure .c1
  | .read .rd0 | .read .rd2 | .readBuf .q0 | .readBuf .q1 | .readBuf .q6 | .getSerIndex | .illegal => true
  | _ => false

/-- What a row can make of its block: it holds, goes to another row whose lifecycle it has checked, finishes,
fails for good, or commits. Working registers and `RES_WORD` are not followed. -/
inductive Block.Moves (p : Params) (b : Block) (pos : Position) : Block → Prop
  | hold (h : pos.mayHold = true) : b.Moves p pos b
  | goto (next : Position) (w : Work) (hn : next ∈ pos.successors)
      (hok : b.rowOk p pos = true → b.rowOk p next = true) :
      b.Moves p pos ({ b with work := w }.goto next)
  | finish (code : ErrCode) (w : Work) (r : Word) (h : pos.mayFinish = true) :
      b.Moves p pos ({ b with work := w, resWord := r }.finish code)
  | fatal (h : pos.mayFail = true) : b.Moves p pos b.fatal
  | commitBegin (h : pos = .begin .b10) : b.Moves p pos b.commitBegin
  | commitEnd (h : pos = .end_ .e9) : b.Moves p pos b.commitEnd
  | commitConfigure (g q f : Nat) (h : pos = .configure .c19) (hr : b.work.r = .ok g q f) :
      b.Moves p pos (b.commitConfigure g q f b.work.st)

section
variable {p : Params} {b : Block} {pos next : Position}

/-- A row without checks goes on with the working registers as they are. -/
theorem Block.Moves.on (hok : b.rowOk p pos = true → b.rowOk p next = true)
    (hn : next ∈ pos.successors := by simp [Position.successors]) : b.Moves p pos (b.goto next) :=
  .goto next b.work hn hok

theorem Block.Moves.ends (code : ErrCode) (h : pos.mayFinish = true) : b.Moves p pos (b.finish code) :=
  .finish code b.work b.resWord h

theorem Block.Moves.sync_pick {o : SyncOutcome} (hok : b.rowOk p pos = true → b.rowOk p next = true)
    (hf : pos.mayFail = true) (hn : next ∈ pos.successors := by simp [Position.successors]) :
    b.Moves p pos (o.pick (b.goto next) b.fatal) := by
  cases o
  · exact .on hok hn
  · exact .fatal hf

theorem Block.Moves.call_ite {c : Prop} [Decidable c] (hok : b.rowOk p pos = true → b.rowOk p next = true)
    (hf : pos.mayFail = true) (hn : next ∈ pos.successors := by simp [Position.successors]) :
    b.Moves p pos (if c then b.goto next else b.fatal) := by
  split
  · exact .on hok hn
  · exact .fatal hf

theorem Block.Moves.hold_ite {c : Prop} [Decidable c] (hok : b.rowOk p pos = true → b.rowOk p next = true)
    (hh : pos.mayHold = true) (hn : next ∈ pos.successors := by simp [Position.successors]) :
    b.Moves p pos (if c then b.goto next else b) := by
  split
  · exact .on hok hn
  · exact .hold hh

theorem Block.Moves.note_pick {o : SyncOutcome} (hok : b.rowOk p pos = true → b.rowOk p next = true)
    (hn : next ∈ pos.successors := by simp [Position.successors]) :
    b.Moves p pos (o.pick (b.goto next) (b.noteTimeout.goto next)) := by
  cases o
  · exact .on hok hn
  · exact .goto next _ hn hok

end

theorem rowBlock_moves_begin (s : State) (b : Block) (row : BeginRow) :
    b.Moves s.params (.begin row) (rowBlock s b (.begin row)) := by
  cases row with
  | b0 =>
    simp only [rowBlock]
    split
    · exact .ends _ rfl
    · next h => exact .on fun _ => by simpa [Block.rowOk] using h
  | b1 =>
    simp only [rowBlock]
    split
    · exact .ends _ rfl
    · exact .on id
  | b2 =>
    simp only [rowBlock]
    cases s.answer.call
    · exact .on id
    · exact .ends _ rfl
  | b3 =>
    simp only [rowBlock]
    cases s.answer.call <;> exact .on id
  | b3f => exact .ends _ rfl
  | b5 | b7 | b9 => exact .sync_pick id rfl
  | b10 => exact .commitBegin rfl
  | b4 | b6 | b8 => exact .on id

theorem rowBlock_moves_end (s : State) (b : Block) (row : EndRow) :
    b.Moves s.params (.end_ row) (rowBlock s b (.end_ row)) := by
  cases row with
  | e0 =>
    simp only [rowBlock]
    split
    · exact .ends _ rfl
    · next h => exact .goto _ _ (by simp [Position.successors]) fun _ => by simpa [Block.rowOk] using h
  | e2 | e4 | e6 => exact .note_pick id
  | e9 => exact .commitEnd rfl
  | e1 | e3 | e5 | e7 | e8 => exact .on id

theorem rowBlock_moves_configure (s : State) (b : Block) (row : ConfigureRow) :
    b.Moves s.params (.configure row) (rowBlock s b (.configure row)) := by
  cases row with
  | c0 =>
    simp only [rowBlock]
    split
    · next h => exact .goto _ _ (by simp [Position.successors]) fun _ => by simpa [Block.rowOk] using h
    · exact .ends _ rfl
  | c1 =>
    simp only [rowBlock]
    split
    · exact .goto _ _ (by simp [Position.successors]) id
    · exact .finish _ _ b.resWord rfl
  | c8 =>
    simp only [rowBlock]
    split
    · exact .call_ite id rfl
    · exact .hold rfl
  | c9 | c10 => exact .call_ite id rfl
  | c11 => exact .hold_ite id rfl
  | c19 =>
    simp only [rowBlock]
    split
    · next hr => exact .commitConfigure _ _ _ rfl hr
    · exact .hold rfl
  | c3 | c5 | c7 | c14 | c16 | c18 => exact .sync_pick id rfl
  | c2 | c4 | c6 | c12 | c13 | c15 | c17 => exact .on id

/-- A block that passes READ's state check has the lifecycle that the later rows rely on (R8). -/
theorem rowOk_of_not_refused {s : State} {b : Block} (h : ¬ readRefused s b = true) :
    (!s.params.checkedRead || b.lifecycle == .running) = true := by
  rw [readRefused_iff] at h
  cases hc : s.params.checkedRead
  · rfl
  · simpa [hc] using h

theorem rowBlock_moves_read (s : State) (b : Block) (row : ReadRow) :
    b.Moves s.params (.read row) (rowBlock s b (.read row)) := by
  cases row with
  | rd0 =>
    simp only [rowBlock]
    split
    · exact .ends _ rfl
    · next h => exact .on fun _ => rowOk_of_not_refused h
  | rd1 => exact .hold_ite id rfl
  | rd2 => exact .finish _ _ _ rfl

theorem rowBlock_moves_readBuf (s : State) (b : Block) (row : ReadBufRow) :
    b.Moves s.params (.readBuf row) (rowBlock s b (.readBuf row)) := by
  cases row with
  | q0 =>
    simp only [rowBlock]
    split
    · exact .finish _ _ b.resWord rfl
    · exact .goto _ _ (by simp [Position.successors]) id
  | q1 =>
    simp only [rowBlock]
    split
    · exact .ends _ rfl
    · next h => exact .on fun _ => rowOk_of_not_refused h
  | q2 => exact .goto _ _ (by simp [Position.successors]) id
  | q3 | q5 => exact .hold_ite id rfl
  | q4 => exact .goto _ _ (by simp [Position.successors]) id
  | q6 =>
    simp only [rowBlock]
    split
    · exact .goto _ _ (by simp [Position.successors]) id
    · exact .finish _ _ b.resWord rfl

/-- Every row moves its block in one of the ways of `Block.Moves`. -/
theorem rowBlock_moves (s : State) (b : Block) (pos : Position) :
    b.Moves s.params pos (rowBlock s b pos) := by
  cases pos with
  | begin row => exact rowBlock_moves_begin s b row
  | end_ row => exact rowBlock_moves_end s b row
  | configure row => exact rowBlock_moves_configure s b row
  | read row => exact rowBlock_moves_read s b row
  | readBuf row => exact rowBlock_moves_readBuf s b row
  | getSerIndex => exact .finish _ b.work _ rfl
  | illegal => exact .ends _ rfl

end Sys2Proof.Machine
end

section
namespace Sys2Proof.Machine

/-! ## The host's steps -/

/-- A port write keeps what construction bound, the lifecycle, ClockConfig, the channel mode and the status; it
moves the sequencer only where no command executes, and then to a first row (R25, R55, R79). -/
structure Block.PortWritten (b b' : Block) : Prop where
  clockPin : b'.clockPin = b.clockPin
  dataPin : b'.dataPin = b.dataPin
  k : b'.k = b.k
  e : b'.e = b.e
  c : b'.c = b.c
  m : b'.m = b.m
  portBase : b'.portBase = b.portBase
  lifecycle : b'.lifecycle = b.lifecycle
  cfgValid : b'.cfgValid = b.cfgValid
  cfgG : b'.cfgG = b.cfgG
  cfgS : b'.cfgS = b.cfgS
  cfgF : b'.cfgF = b.cfgF
  result : b'.result = b.result
  errCode : b'.errCode = b.errCode
  seq : (b'.seq = b.seq ∧ b'.work = b.work) ∨ (b.seq = none ∧ ∃ d, b'.seq = some (Position.first d))

theorem Block.writePort_portWritten {b b' : Block} {r : PortReg} {v : Word} (h : b.writePort r v = some b') :
    b.PortWritten b' := by
  cases r <;> simp only [Block.writePort] at h
  case cmd =>
    split at h <;> cases h
    next hbusy =>
    exact ⟨rfl, rfl, rfl, rfl, rfl, rfl, rfl, rfl, rfl, rfl, rfl, rfl, rfl, rfl,
      .inr ⟨by simpa [Block.busy] using hbusy, _, rfl⟩⟩
  case argRate | argCount | argBuf =>
    split at h <;> cases h
    exact ⟨rfl, rfl, rfl, rfl, rfl, rfl, rfl, rfl, rfl, rfl, rfl, rfl, rfl, rfl, .inl ⟨rfl, rfl⟩⟩
  all_goals
    cases h
    exact ⟨rfl, rfl, rfl, rfl, rfl, rfl, rfl, rfl, rfl, rfl, rfl, rfl, rfl, rfl, .inl ⟨rfl, rfl⟩⟩

/-- A host step that answers: its program goes on, and it loads a value or stores to host memory; or it writes a
port register of one block; or it constructs a block (R87). -/
theorem hostStep_cases {s u : State} (h : hostStep s = .next u) :
    (∃ rest rcv mem, u = { s with program := rest, received := rcv, buf := mem }) ∨
    (∃ rest port b b', s.block? port = some b ∧ b.PortWritten b' ∧
      u = { s with program := rest }.setBlock port b') ∨
    ∃ rest cp dp k, u = { s with program := rest }.construct cp dp k := by
  unfold hostStep at h
  split at h
  · cases h; exact .inl ⟨_, _, _, rfl⟩
  · next port width off v rest _ =>
    simp only [State.portWrite] at h
    split at h
    · cases h
    · next b hb =>
      split at h
      · cases h
      · cases h
      · split at h
        · cases h
        · next b' hb' =>
          cases h
          exact .inr (.inl ⟨rest, port, b, b', hb, Block.writePort_portWritten hb', rfl⟩)
  · simp only [State.portRead] at h
    split at h
    · cases h
    · split at h <;> cases h
      exact .inl ⟨_, _, _, rfl⟩
  · simp only [State.waitStep] at h
    split at h
    · cases h
    · split at h <;> cases h <;> exact .inl ⟨_, _, _, rfl⟩
  · obtain ⟨-, rfl⟩ := State.hostLoad_next h; exact .inl ⟨_, _, _, rfl⟩
  · obtain ⟨-, rfl⟩ := State.hostStore_next h; exact .inl ⟨_, _, _, rfl⟩
  · obtain ⟨-, rfl⟩ := State.hostLoad_next h; exact .inl ⟨_, _, _, rfl⟩
  · obtain ⟨-, rfl⟩ := State.hostLoad_next h; exact .inl ⟨_, _, _, rfl⟩
  · obtain ⟨-, rfl⟩ := State.hostStore_next h; exact .inl ⟨_, _, _, rfl⟩
  · obtain ⟨-, rfl⟩ := State.hostStore_next h; exact .inl ⟨_, _, _, rfl⟩
  · cases h; exact .inr (.inr ⟨_, _, _, _, rfl⟩)

theorem hostStep_engine {s u : State} (h : hostStep s = .next u) (e : Nat) : u.engine e = s.engine e :=
  have ⟨_, he, _⟩ := hostStep_view h
  he e

theorem hostStep_owner {s u : State} (h : hostStep s = .next u) (e : Nat) : u.owner e = s.owner e :=
  have ⟨_, _, ho, _⟩ := hostStep_view h
  ho e

/-- Settles O56, by the three cases of a host step: none of them names an engine, an owner, a generator, a route
or the trace. -/
theorem hostNeverReachesEngine : Obligations.HostNeverReachesEngine := by
  intro s t hturn h
  rw [step_of_host hturn] at h
  obtain ⟨u, hu, rfl⟩ := advance_next h
  rcases hostStep_cases hu with ⟨_, _, _, rfl⟩ | ⟨_, _, _, _, _, _, rfl⟩ | ⟨_, _, _, _, rfl⟩ <;>
    exact ⟨fun _ => ⟨rfl, rfl⟩, ⟨fun _ => rfl, fun _ _ => rfl⟩, rfl⟩

/-! ## What a step makes of the blocks -/

/-- What a producer's step leaves alone: everything but its engine (R155). -/
theorem producerStep_engineOnly (s : State) (e : Nat) (m : UnitIx) :
    s.EngineOnly (producerStep e m s) e := by
  unfold producerStep
  split
  · exact s.deliver_engineOnly e m s.answer.word
  · exact ⟨rfl, rfl, rfl, fun _ _ => rfl, rfl, rfl, rfl, rfl, rfl, rfl, rfl, rfl, rfl, rfl⟩

/-- The blocks after a row: its own as `rowBlock` says, the others as they were. -/
theorem rowStep_block? {s u : State} {id : Nat} {b : Block} {pos : Position} (hb : s.block? id = some b)
    (h : rowStep pos id b s = .next u) (j : Nat) :
    u.block? j = if j = id then some (rowBlock s b pos) else s.block? j :=
  have ⟨_, _, hblocks, _⟩ := rowStep_view hb h
  hblocks j

/-- The engines after a row: the block's own has the row's effect, the others are as they were. -/
theorem rowStep_engine {s u : State} {id : Nat} {b : Block} {pos : Position} (hb : s.block? id = some b)
    (h : rowStep pos id b s = .next u) :
    (b.effectAt pos).holds s b (u.engine b.e) ∧ ∀ j, j ≠ b.e → u.engine j = s.engine j := by
  obtain ⟨-, -, -, en, hen, hengine⟩ := rowStep_view hb h
  rw [hengine, if_pos rfl]
  exact ⟨hen, fun j hj => (hengine j).trans (if_neg hj)⟩

/-- An existing block after a step: as it was, written through its port by the host, or moved by its own
sequencer's row. A constructed block's identifier is fresh. -/
theorem step_block {s t : State} {id : Nat} {b : Block} (h : step s = .next t) (hb : s.block? id = some b)
    (hfresh : ∀ j, s.nextId ≤ j → s.block? j = none) :
    t.block? id = some b ∨ (∃ b', t.block? id = some b' ∧ s.turn = .host ∧ b.PortWritten b') ∨
      ∃ pos, s.turn = .sequencer id ∧ b.seq = some pos ∧ t.block? id = some (rowBlock s b pos) := by
  obtain ⟨u, rfl, hcases⟩ := step_cases h
  simp only [State.block?_nextAnswer]
  rcases hcases with ⟨hturn, hu⟩ | ⟨j, c, pos, hturn, hc, hpos, hu⟩ | ⟨-, rfl⟩ | ⟨e, m, -, rfl⟩
  · rcases hostStep_cases hu with ⟨_, _, _, rfl⟩ | ⟨_, port, c, c', hc, hw, rfl⟩ | ⟨_, cp, dp, k, rfl⟩
    · exact .inl hb
    · rw [State.block?_setBlock]
      split
      · next hid => subst hid; rw [hb] at hc; cases hc; exact .inr (.inl ⟨c', rfl, hturn, hw⟩)
      · exact .inl hb
    · rw [State.block?_construct, if_neg]
      · exact .inl hb
      · rintro rfl
        rw [hfresh _ (Nat.le_refl _)] at hb
        cases hb
  · rw [rowStep_block? hc hu]
    split
    · next hid => subst hid; rw [hb] at hc; cases hc; exact .inr (.inr ⟨pos, hturn, hpos, rfl⟩)
    · exact .inl hb
  · exact .inl hb
  · exact .inl (((producerStep_engineOnly s e m).block? id).trans hb)

/-- What a row keeps of its block: all that construction bound, the PORT base and the operand registers. -/
theorem Block.Moves.sameInputs {p : Params} {b b' : Block} {pos : Position} (h : b.Moves p pos b') :
    b.sameInputs b' := by
  cases h <;> exact ⟨rfl, rfl, rfl, rfl, rfl, rfl, rfl, rfl, rfl, rfl, rfl⟩

theorem step_params {s t : State} (h : step s = .next t) : t.params = s.params := by
  obtain ⟨u, rfl, hcases⟩ := step_cases h
  rcases hcases with ⟨-, hu⟩ | ⟨_, _, _, -, hb, -, hu⟩ | ⟨-, rfl⟩ | ⟨e, m, -, rfl⟩
  · exact (hostStep_view hu).1
  · exact (rowStep_view hb hu).1
  · rfl
  · exact (producerStep_engineOnly s e m).params

/-- Settles O53, by the three ways in which a step can change an existing block. -/
theorem bindingNeverChanges : Obligations.BindingNeverChanges := by
  intro s t h hfresh
  refine ⟨step_params h, fun id b hb => ?_⟩
  rcases step_block h hb hfresh with hb' | ⟨b', hb', -, hw⟩ | ⟨pos, -, -, hb'⟩
  · exact ⟨b, hb', rfl, rfl, rfl, rfl, rfl, rfl, rfl⟩
  · exact ⟨b', hb', hw.clockPin, hw.dataPin, hw.k, hw.e, hw.c, hw.m, hw.portBase⟩
  · obtain ⟨h1, h2, h3, h4, h5, h6, h7, -⟩ := (rowBlock_moves s b pos).sameInputs
    exact ⟨_, hb', h1, h2, h3, h4, h5, h6, h7⟩

theorem ErrCode.beq_none_iff (code : ErrCode) : (code == .none) = true ↔ code = .none := by
  cases code <;> simp

/-- A row writes `RESULT` and `ERRCODE` only where it ends its command, and then together (R32, R80). -/
theorem Block.Moves.status {p : Params} {b b' : Block} {pos : Position} (h : b.Moves p pos b') :
    (b'.result = b.result ∧ b'.errCode = b.errCode) ∨
      (b'.seq = none ∧ (b'.result = true ↔ b'.errCode = .none)) := by
  cases h with
  | hold _ => exact .inl ⟨rfl, rfl⟩
  | goto _ _ _ _ => exact .inl ⟨rfl, rfl⟩
  | _ => exact .inr ⟨rfl, ErrCode.beq_none_iff _⟩

/-- Settles O57, by the three ways in which a step can change an existing block: only a row of its own sequencer
touches its status. -/
theorem statusWrittenOnlyByFinish : Obligations.StatusWrittenOnlyByFinish := by
  intro s t id b b' h hb hb' hchange hfresh
  have hkept : ¬ (b'.result = b.result ∧ b'.errCode = b.errCode) := by
    rintro ⟨h1, h2⟩
    rcases hchange with hc | hc
    · exact hc h1
    · exact hc h2
  rcases step_block h hb hfresh with hs | ⟨c, hs, -, hw⟩ | ⟨pos, hturn, hpos, hs⟩ <;>
    rw [hb'] at hs <;> cases hs
  · exact absurd ⟨rfl, rfl⟩ hkept
  · exact absurd ⟨hw.result, hw.errCode⟩ hkept
  · obtain ⟨h1, h2⟩ := (rowBlock_moves s b pos).status.resolve_left hkept
    exact ⟨hturn, by simp [hpos], h1, h2⟩
end Sys2Proof.Machine
end

section
namespace Sys2Proof.Machine

/-! ## Ownership (R41, R124) -/

/-- The block has its engine: it is out of `UNINIT`, or in BEGIN past the test-and-set (R124). -/
def Block.holdsItsEngine (b : Block) : Prop :=
  b.lifecycle ≠ .uninit ∨ ∃ pos, b.seq = some pos ∧ pos.holdsEngine = true

/-- The owner of the block's engine after the row at a position. -/
def Block.ownerAfter (b : Block) (s : State) (id : Nat) : Position → Option Nat
  | .begin .b1 => if s.owner b.e ≠ none then s.owner b.e else some id
  | .begin .b2 => s.answer.call.pick (s.owner b.e) none
  | .begin .b3f | .end_ .e9 => none
  | _ => s.owner b.e

theorem RowAction.ownerAfter_actionOf {b : Block} {s : State} (r : CalcResult) {f : Nat → Nat → RowAction}
    (h : ∀ g q, (f g q).ownerAfter b s = s.owner b.e) : (r.actionOf f).ownerAfter b s = s.owner b.e := by
  cases r with
  | ok g q _ => exact h g q
  | fail _ => rfl

theorem Block.ownerAfter_actionAt (b : Block) (s : State) (id : Nat) (st : Bool) (pos : Position) :
    (b.actionAt s id st pos).ownerAfter b s = b.ownerAfter s id pos := by
  cases pos with
  | begin row =>
    cases row <;> simp only [Block.actionAt, Block.ownerAfter]
    case b1 => split <;> rfl
    case b2 => cases s.answer.call <;> rfl
    all_goals rfl
  | end_ row => cases row <;> rfl
  | configure row =>
    cases row <;> simp only [Block.actionAt, Block.ownerAfter]
    case c8 | c11 => exact RowAction.ownerAfter_actionOf _ fun _ _ => rfl
    all_goals rfl
  | read row => cases row <;> rfl
  | readBuf row => cases row <;> rfl
  | getSerIndex => rfl
  | illegal => rfl

theorem Block.ownerAfter_of_mayHold {b : Block} {s : State} {id : Nat} {pos : Position}
    (h : pos.mayHold = true) : b.ownerAfter s id pos = s.owner b.e := by
  cases pos with
  | begin row => cases row <;> cases h
  | end_ row => cases row <;> cases h
  | configure row => rfl
  | read row => rfl
  | readBuf row => rfl
  | getSerIndex => rfl
  | illegal => rfl

/-- The owners after a row that answers. -/
theorem Block.Takes.owner {b : Block} {s u : State} {id : Nat} {st : Bool} {pos : Position}
    (h : b.Takes s u id st pos) (j : Nat) :
    u.owner j = if j = b.e then b.ownerAfter s id pos else s.owner j := by
  rcases h with ⟨rfl, hh⟩ | ⟨b', rfl⟩
  · rw [Block.ownerAfter_of_mayHold hh]
    split
    · next hj => rw [hj]
    · rfl
  · rw [State.owner_setBlock, RowAction.apply_owner, Block.ownerAfter_actionAt]

/-- The owner changes at a row of BEGIN or at E9 only (R41). -/
theorem Block.ownerAfter_ne {b : Block} {s : State} {id : Nat} {pos : Position}
    (h : b.ownerAfter s id pos ≠ s.owner b.e) : (∃ row, pos = .begin row) ∨ pos = .end_ .e9 := by
  cases pos with
  | begin row => exact .inl ⟨row, rfl⟩
  | end_ row =>
    cases row with
    | e9 => exact .inr rfl
    | _ => exact absurd rfl h
  | _ => exact absurd rfl h

/-- Settles O55, by the owners after each agent's step. -/
theorem onlyBeginAndEndChangeOwner : Obligations.OnlyBeginAndEndChangeOwner := by
  intro s t e h hne
  obtain ⟨u, rfl, hcases⟩ := step_cases h
  rw [State.owner_nextAnswer] at hne
  rcases hcases with ⟨-, hu⟩ | ⟨id, b, pos, hturn, hb, hpos, hu⟩ | ⟨-, rfl⟩ | ⟨e', m, -, rfl⟩
  · exact absurd (hostStep_owner hu e) hne
  · rw [(rowStep_takes hu).owner e] at hne
    split at hne
    · next he =>
      subst he
      refine ⟨id, b, hturn, hb, rfl, ?_⟩
      rcases Block.ownerAfter_ne hne with ⟨row, rfl⟩ | rfl
      · exact .inl ⟨row, hpos⟩
      · exact .inr hpos
    · exact absurd rfl hne
  · exact absurd rfl hne
  · exact absurd ((producerStep_engineOnly s e' m).owner e) hne

/-- What the ownership invariant says of one block. -/
structure State.BlockOwns (s : State) (id : Nat) (b : Block) : Prop where
  owner_iff : s.owner b.e = some id ↔ b.holdsItsEngine
  rowOk : ∀ pos, b.seq = some pos → b.rowOk s.params pos = true

theorem State.OwnershipInv.block {s : State} (h : s.OwnershipInv) {id : Nat} {b : Block}
    (hb : s.block? id = some b) : s.BlockOwns id b :=
  ⟨(h.1 id b hb).1, (h.1 id b hb).2⟩

theorem State.OwnershipInv.fresh {s : State} (h : s.OwnershipInv) {id : Nat} (hid : s.nextId ≤ id) :
    s.block? id = none := (h.2 id hid).1

theorem State.OwnershipInv.fresh_owner {s : State} (h : s.OwnershipInv) {id : Nat} (hid : s.nextId ≤ id)
    (e : Nat) : s.owner e ≠ some id := (h.2 id hid).2 e

theorem State.OwnershipInv.of_blocks {s : State} (hb : ∀ id b, s.block? id = some b → s.BlockOwns id b)
    (hf : ∀ id, s.nextId ≤ id → s.block? id = none ∧ ∀ e, s.owner e ≠ some id) : s.OwnershipInv :=
  ⟨fun id b h => ⟨(hb id b h).owner_iff, (hb id b h).rowOk⟩, hf⟩

/-- Two blocks that have one engine are one block (R124). -/
theorem State.OwnershipInv.eq_of_holds {s : State} (h : s.OwnershipInv) {i j : Nat} {b c : Block}
    (hb : s.block? i = some b) (hc : s.block? j = some c) (he : b.e = c.e) (hbo : b.holdsItsEngine)
    (hco : c.holdsItsEngine) : i = j := by
  have h1 := (h.block hb).owner_iff.mpr hbo
  have h2 := (h.block hc).owner_iff.mpr hco
  rw [he, h2] at h1
  exact (Option.some.inj h1).symm

theorem Block.holdsItsEngine_of_seq {b : Block} {pos : Position} (hp : b.seq = some pos)
    (hn : pos.holdsEngine = false) : b.holdsItsEngine ↔ b.lifecycle ≠ .uninit := by
  simp [Block.holdsItsEngine, hp, hn]

theorem Block.holdsItsEngine_of_none {b : Block} (hp : b.seq = none) :
    b.holdsItsEngine ↔ b.lifecycle ≠ .uninit := by
  simp [Block.holdsItsEngine, hp]

theorem Block.finish_holdsItsEngine (b : Block) (code : ErrCode) :
    (b.finish code).holdsItsEngine ↔ b.lifecycle ≠ .uninit :=
  Block.holdsItsEngine_of_none rfl

/-- Only rows of BEGIN hold the engine of a block in `UNINIT`. -/
theorem Position.holdsEngine_of_not_begin {pos : Position} (h : ∀ row, pos ≠ .begin row) :
    pos.holdsEngine = false := by
  cases pos with
  | begin row => exact absurd rfl (h row)
  | _ => rfl

theorem Position.successors_not_begin {pos next : Position} (h : ∀ row, pos ≠ .begin row)
    (hn : next ∈ pos.successors) : ∀ row, next ≠ .begin row := by
  rintro row rfl
  cases pos with
  | begin row' => exact absurd rfl (h row')
  | end_ row' => cases row' <;> simp [Position.successors] at hn
  | configure row' => cases row' <;> simp [Position.successors] at hn
  | read row' => cases row' <;> simp [Position.successors] at hn
  | readBuf row' => cases row' <;> simp [Position.successors] at hn
  | getSerIndex => simp [Position.successors] at hn
  | illegal => simp [Position.successors] at hn

theorem Block.rowOk_begin {p : Params} {b : Block} {row : BeginRow} (h : row ≠ .b0)
    (hok : b.rowOk p (.begin row) = true) : b.lifecycle = .uninit := by
  cases row <;> simp_all [Block.rowOk]

theorem Block.rowOk_end {p : Params} {b : Block} {row : EndRow} (h : row ≠ .e0)
    (hok : b.rowOk p (.end_ row) = true) : b.lifecycle ≠ .uninit := by
  cases row <;> simp_all [Block.rowOk]

theorem Block.rowOk_configure {p : Params} {b : Block} {row : ConfigureRow} (h : row ≠ .c0)
    (hok : b.rowOk p (.configure row) = true) : b.lifecycle = .idle ∨ b.lifecycle = .running := by
  cases row <;> simp_all [Block.rowOk]

theorem Block.rowOk_configure_ne {p : Params} {b : Block} {row : ConfigureRow} (h : row ≠ .c0)
    (hok : b.rowOk p (.configure row) = true) : b.lifecycle ≠ .uninit := by
  rcases Block.rowOk_configure h hok with hl | hl <;> simp [hl]

/-- A row that can fail for good stands where the block has its engine. -/
theorem Block.holds_of_mayFail {p : Params} {b : Block} {pos : Position} (h : pos.mayFail = true)
    (hp : b.seq = some pos) (hok : b.rowOk p pos = true) : b.holdsItsEngine := by
  cases pos with
  | begin row =>
    refine .inr ⟨_, hp, ?_⟩
    cases row <;> first | rfl | cases h
  | configure row =>
    refine .inl (Block.rowOk_configure_ne ?_ hok)
    rintro rfl
    cases h
  | end_ row => cases h
  | read row => cases h
  | readBuf row => cases h
  | getSerIndex => cases h
  | illegal => cases h

/-- Outside BEGIN and E9, a row leaves a block that has its engine with it, and one that has not without. -/
theorem Block.Moves.holdsItsEngine_iff {p : Params} {b b' : Block} {pos : Position} (h : b.Moves p pos b')
    (hp : b.seq = some pos) (hok : b.rowOk p pos = true) (hb : ∀ row, pos ≠ .begin row)
    (he : pos ≠ .end_ .e9) : b'.holdsItsEngine ↔ b.holdsItsEngine := by
  have hn := Block.holdsItsEngine_of_seq hp (Position.holdsEngine_of_not_begin hb)
  cases h with
  | hold _ => exact Iff.rfl
  | goto next w hs _ =>
    rw [hn]
    exact Block.holdsItsEngine_of_seq rfl
      (Position.holdsEngine_of_not_begin (Position.successors_not_begin hb hs))
  | finish code w r _ => rw [hn]; exact Block.holdsItsEngine_of_none rfl
  | fatal hf => exact iff_of_true (.inl (by simp)) (Block.holds_of_mayFail hf hp hok)
  | commitBegin hpos => exact absurd hpos (hb _)
  | commitEnd hpos => exact absurd hpos he
  | commitConfigure g q f hpos _ =>
    subst hpos
    exact iff_of_true (.inl (by simp [Block.commitConfigure, Block.finish]))
      (hn.mpr (Block.rowOk_configure_ne (by simp) hok))

/-- The ownership of a block after a row of its own sequencer. -/
theorem rowBlock_owner_iff {s : State} {id : Nat} {b : Block} {pos : Position} (h : s.BlockOwns id b)
    (hp : b.seq = some pos) :
    b.ownerAfter s id pos = some id ↔ (rowBlock s b pos).holdsItsEngine := by
  have hok := h.rowOk pos hp
  cases pos with
  | begin row =>
    cases row with
    | b0 =>
      have hown := h.owner_iff.trans (Block.holdsItsEngine_of_seq hp rfl)
      simp only [rowBlock]
      split
      · exact hown.trans (b.finish_holdsItsEngine _).symm
      · exact hown.trans (Block.holdsItsEngine_of_seq (b := b.goto (.begin .b1)) rfl rfl).symm
    | b1 =>
      have hown := h.owner_iff.trans (Block.holdsItsEngine_of_seq hp rfl)
      simp only [rowBlock, Block.ownerAfter]
      split
      · exact hown.trans (b.finish_holdsItsEngine _).symm
      · exact iff_of_true rfl (.inr ⟨_, rfl, rfl⟩)
    | b2 =>
      have hl := Block.rowOk_begin (by simp) hok
      simp only [rowBlock, Block.ownerAfter]
      cases s.answer.call
      · exact iff_of_true (h.owner_iff.mpr (.inr ⟨_, hp, rfl⟩)) (.inr ⟨_, rfl, rfl⟩)
      · exact iff_of_false (by simp) (by simp [Block.holdsItsEngine, Block.finish, hl])
    | b3 =>
      refine iff_of_true (h.owner_iff.mpr (.inr ⟨_, hp, rfl⟩)) ?_
      simp only [rowBlock]
      cases s.answer.call <;> exact .inr ⟨_, rfl, rfl⟩
    | b3f =>
      have hl := Block.rowOk_begin (by simp) hok
      exact iff_of_false (by simp [Block.ownerAfter])
        (by simp [Block.holdsItsEngine, rowBlock, Block.finish, hl])
    | b5 | b7 | b9 =>
      refine iff_of_true (h.owner_iff.mpr (.inr ⟨_, hp, rfl⟩)) ?_
      simp only [rowBlock]
      cases s.answer.sync
      · exact .inr ⟨_, rfl, rfl⟩
      · exact .inl (by simp)
    | b10 =>
      exact iff_of_true (h.owner_iff.mpr (.inr ⟨_, hp, rfl⟩))
        (.inl (by simp [rowBlock, Block.commitBegin, Block.finish]))
    | b4 | b6 | b8 => exact iff_of_true (h.owner_iff.mpr (.inr ⟨_, hp, rfl⟩)) (.inr ⟨_, rfl, rfl⟩)
  | end_ row =>
    by_cases he : row = .e9
    · subst he
      exact iff_of_false (by simp [Block.ownerAfter])
        (by simp [Block.holdsItsEngine, rowBlock, Block.commitEnd, Block.finish])
    · have hown : b.ownerAfter s id (.end_ row) = s.owner b.e := by
        cases row <;> first | rfl | exact absurd rfl he
      rw [hown, h.owner_iff]
      exact ((rowBlock_moves s b _).holdsItsEngine_iff hp hok (by simp) (by simpa using he)).symm
  | _ =>
    exact h.owner_iff.trans
      ((rowBlock_moves s b _).holdsItsEngine_iff hp hok (by simp) (by simp)).symm

theorem Block.Moves.rowOk {p : Params} {b b' : Block} {pos : Position} (h : b.Moves p pos b')
    (hp : b.seq = some pos) (hok : b.rowOk p pos = true) :
    ∀ pos', b'.seq = some pos' → b'.rowOk p pos' = true := by
  intro pos' hp'
  cases h with
  | hold _ => rw [hp] at hp'; cases hp'; exact hok
  | goto next w hs hnext => cases hp'; exact hnext hok
  | _ => cases hp'

/-- A row changes the owner of its own block's engine only, and no other block gains or loses it. -/
theorem Block.ownerAfter_other {s : State} {id j : Nat} {b : Block} {pos : Position} (h : s.BlockOwns id b)
    (hp : b.seq = some pos) (hj : j ≠ id) :
    b.ownerAfter s id pos = some j ↔ s.owner b.e = some j := by
  have hrel : pos.holdsEngine = true ∨ pos = .end_ .e9 → (none = some j ↔ s.owner b.e = some j) := by
    intro hpos
    have hown : s.owner b.e = some id := by
      refine h.owner_iff.mpr ?_
      rcases hpos with hpos | rfl
      · exact .inr ⟨pos, hp, hpos⟩
      · exact .inl (Block.rowOk_end (by simp) (h.rowOk _ hp))
    simp [hown, Ne.symm hj]
  cases pos with
  | begin row =>
    cases row with
    | b1 =>
      simp only [Block.ownerAfter]
      split
      · exact Iff.rfl
      · next hn => simp [not_not.mp hn, Ne.symm hj]
    | b2 =>
      simp only [Block.ownerAfter]
      cases s.answer.call
      · exact Iff.rfl
      · exact hrel (.inl rfl)
    | b3f => exact hrel (.inl rfl)
    | _ => exact Iff.rfl
  | end_ row =>
    cases row with
    | e9 => exact hrel (.inr rfl)
    | _ => exact Iff.rfl
  | _ => exact Iff.rfl

/-- A row keeps the ownership invariant. -/
theorem State.OwnershipInv.row {s u : State} {id : Nat} {b : Block} {pos : Position} (h : s.OwnershipInv)
    (hb : s.block? id = some b) (hp : b.seq = some pos) (hu : rowStep pos id b s = .next u) :
    u.OwnershipInv := by
  obtain ⟨hparams, hnext, hblocks, -⟩ := rowStep_view hb hu
  have howner := (rowStep_takes hu).owner
  have hown := h.block hb
  have hother : ∀ j e, j ≠ id → (u.owner e = some j ↔ s.owner e = some j) := by
    intro j e hj
    rw [howner]
    split
    · next he => rw [he]; exact Block.ownerAfter_other hown hp hj
    · exact Iff.rfl
  refine .of_blocks (fun j c hc => ?_) (fun j hj => ?_)
  · rw [hblocks] at hc
    split at hc
    · next hj =>
      subst hj
      cases hc
      refine ⟨?_, ?_⟩
      · rw [(rowBlock_binding s b pos).1, howner, if_pos rfl]
        exact rowBlock_owner_iff hown hp
      · rw [hparams]
        exact (rowBlock_moves s b pos).rowOk hp (hown.rowOk pos hp)
    · next hj =>
      exact ⟨(hother j c.e hj).trans (h.block hc).owner_iff, by rw [hparams]; exact (h.block hc).rowOk⟩
  · rw [hnext] at hj
    have hne : j ≠ id := by
      rintro rfl
      rw [h.fresh hj] at hb
      cases hb
    exact ⟨by rw [hblocks, if_neg hne]; exact h.fresh hj,
      fun e he => h.fresh_owner hj e ((hother j e hne).mp he)⟩

/-- A block keeps what the invariant says of it where its owner, its parameters and the block stay. -/
theorem State.BlockOwns.congr {s t : State} {id : Nat} {b : Block} (h : s.BlockOwns id b)
    (ho : t.owner b.e = s.owner b.e) (hp : t.params = s.params) : t.BlockOwns id b :=
  ⟨by rw [ho]; exact h.owner_iff, by rw [hp]; exact h.rowOk⟩

theorem Position.holdsEngine_first (d : Except DecodeError Instr) :
    (Position.first d).holdsEngine = false := by
  rcases d with _ | i
  · rfl
  · cases i <;> rfl

theorem Block.rowOk_first (p : Params) (b : Block) (d : Except DecodeError Instr) :
    b.rowOk p (Position.first d) = true := by
  rcases d with _ | i
  · rfl
  · cases i <;> rfl

theorem Block.PortWritten.holdsItsEngine_iff {b b' : Block} (h : b.PortWritten b') :
    b'.holdsItsEngine ↔ b.holdsItsEngine := by
  unfold Block.holdsItsEngine
  rw [h.lifecycle]
  rcases h.seq with ⟨hs, -⟩ | ⟨hn, d, hs⟩
  · rw [hs]
  · simp [hn, hs, Position.holdsEngine_first]

theorem Block.rowOk_congr {b b' : Block} (p : Params) (h : b'.lifecycle = b.lifecycle) (pos : Position) :
    b'.rowOk p pos = b.rowOk p pos := by
  unfold Block.rowOk
  rw [h]

theorem Block.PortWritten.rowOk {b b' : Block} (h : b.PortWritten b') {p : Params}
    (hok : ∀ pos, b.seq = some pos → b.rowOk p pos = true) :
    ∀ pos, b'.seq = some pos → b'.rowOk p pos = true := by
  intro pos hp
  rcases h.seq with ⟨hs, -⟩ | ⟨-, d, hs⟩
  · rw [Block.rowOk_congr p h.lifecycle]
    exact hok pos (hs ▸ hp)
  · rw [hs] at hp
    cases hp
    exact Block.rowOk_first p b' d

/-- A host step keeps the ownership invariant. -/
theorem State.OwnershipInv.host {s u : State} (h : s.OwnershipInv) (hu : hostStep s = .next u) :
    u.OwnershipInv := by
  rcases hostStep_cases hu with ⟨_, _, _, rfl⟩ | ⟨rest, port, b, b', hb, hw, rfl⟩ | ⟨rest, cp, dp, k, rfl⟩
  · exact h
  · refine .of_blocks (fun j c hc => ?_) (fun j hj => ⟨?_, h.fresh_owner hj⟩)
    · rw [State.block?_setBlock] at hc
      split at hc
      · next hj =>
        subst hj
        cases hc
        refine ⟨?_, hw.rowOk (h.block hb).rowOk⟩
        rw [hw.e, hw.holdsItsEngine_iff]
        exact (h.block hb).owner_iff
      · exact (h.block hc).congr rfl rfl
    · rw [State.block?_setBlock, if_neg]
      · exact h.fresh hj
      · rintro rfl
        rw [h.fresh hj] at hb
        cases hb
  · refine .of_blocks (fun j c hc => ?_) (fun j hj => ?_)
    · rw [State.block?_construct] at hc
      split at hc
      · next hj =>
        subst hj
        cases hc
        refine ⟨iff_of_false (h.fresh_owner (Nat.le_refl _) _) ?_, fun pos hp => by cases hp⟩
        simp [Block.holdsItsEngine, Block.construct]
      · exact (h.block hc).congr rfl rfl
    · have hlt : s.nextId + 1 ≤ j := hj
      rw [State.block?_construct, if_neg (by simp; omega)]
      exact h.2 j (by omega)

theorem State.OwnershipInv.engineOnly {s u : State} {e : Nat} (h : s.OwnershipInv) (hu : s.EngineOnly u e) :
    u.OwnershipInv := by
  refine .of_blocks (fun j c hc => (h.block (hu.block? j ▸ hc)).congr (hu.owner _) hu.params)
    (fun j hj => ?_)
  rw [hu.nextId] at hj
  exact ⟨(hu.block? j).trans (h.fresh hj), fun e => hu.owner e ▸ h.fresh_owner hj e⟩

/-- Every step keeps the ownership invariant. -/
theorem State.OwnershipInv.step {s t : State} (h : s.OwnershipInv) (ht : step s = .next t) :
    t.OwnershipInv := by
  obtain ⟨u, rfl, hcases⟩ := step_cases ht
  show u.OwnershipInv
  rcases hcases with ⟨-, hu⟩ | ⟨id, b, pos, -, hb, hp, hu⟩ | ⟨-, rfl⟩ | ⟨e, m, -, rfl⟩
  · exact h.host hu
  · exact h.row hb hp hu
  · exact h
  · exact h.engineOnly (producerStep_engineOnly s e m)

/-- Settles O45: each agent's step keeps the invariant, and an engine has one owner. -/
theorem ownershipKept : Obligations.OwnershipKept :=
  ⟨fun _ _ h ht => h.step ht,
    fun _ _ _ _ _ h hb hc he hbl hcl => h.eq_of_holds hb hc he (.inl hbl) (.inl hcl)⟩

end Sys2Proof.Machine
end

section
/-! Synchronised writes (R33, R45, R66): a row that waits, the row that writes before it, and the invariant of
what is pending. -/

namespace Sys2Proof.Machine

/-! ## Which rows write and which wait -/

/-- The effect needs the engine: a register write, or a wait for one. -/
def Effect.writes : Effect → Bool
  | .none | .clr => false
  | _ => true

/-- A row waits for a field exactly where that field's write is pending. -/
theorem Block.effectAt_sync_iff (b : Block) (pos : Position) (f : CtrlField) :
    b.effectAt pos = .sync f ↔ ∃ v, b.pendingAt pos = some (f, v) := by
  cases pos with
  | begin row => cases row <;> simp [Block.effectAt, Block.pendingAt]
  | end_ row => cases row <;> simp [Block.effectAt, Block.pendingAt]
  | configure row => cases row <;> simp [Block.effectAt, Block.pendingAt]
  | read row => cases row <;> simp [Block.effectAt, Block.pendingAt]
  | readBuf row => cases row <;> simp [Block.effectAt, Block.pendingAt]
  | getSerIndex => simp [Block.effectAt, Block.pendingAt]
  | illegal => simp [Block.effectAt, Block.pendingAt]

/-- A row goes to one that waits only by writing what that one waits for. -/
theorem Block.effectAt_of_pending_successor {b : Block} {pos next : Position} {f : CtrlField} {v : Bool}
    (hn : next ∈ pos.successors) (h : b.pendingAt next = some (f, v)) : b.effectAt pos = .wr f v := by
  cases pos with
  | begin row =>
    cases row
    case b3 => rcases List.mem_pair.mp hn with rfl | rfl <;> cases h
    all_goals simp [Position.successors] at hn <;> simp_all [Block.effectAt, Block.pendingAt]
  | end_ row => cases row <;> simp [Position.successors] at hn <;> simp_all [Block.effectAt, Block.pendingAt]
  | configure row =>
    cases row <;> simp [Position.successors] at hn <;> simp_all [Block.effectAt, Block.pendingAt]
  | read row => cases row <;> simp [Position.successors] at hn <;> simp_all [Block.pendingAt]
  | readBuf row => cases row <;> simp [Position.successors] at hn <;> simp_all [Block.pendingAt]
  | getSerIndex => cases hn
  | illegal => cases hn

/-- A row that writes a field goes to the one that waits for it. -/
theorem rowBlock_of_wr {s : State} {b : Block} {pos : Position} {f : CtrlField} {v : Bool}
    (h : b.effectAt pos = .wr f v) :
    ∃ next, rowBlock s b pos = b.goto next ∧ b.pendingAt next = some (f, v) := by
  cases pos with
  | begin row => cases row <;> cases h <;> exact ⟨_, rfl, rfl⟩
  | end_ row => cases row <;> cases h <;> exact ⟨_, rfl, rfl⟩
  | configure row => cases row <;> cases h <;> exact ⟨_, rfl, rfl⟩
  | read row => cases row <;> cases h
  | readBuf row => cases row <;> cases h
  | getSerIndex => cases h
  | illegal => cases h

/-- A row that writes an engine register, or waits for one, stands where the block has its engine (R124). -/
theorem Block.holds_of_writes {p : Params} {b : Block} {pos : Position} (hp : b.seq = some pos)
    (hok : b.rowOk p pos = true) (h : (b.effectAt pos).writes = true) : b.holdsItsEngine := by
  cases pos with
  | begin row =>
    refine .inr ⟨_, hp, ?_⟩
    cases row <;> first | rfl | cases h
  | end_ row =>
    refine .inl (Block.rowOk_end ?_ hok)
    rintro rfl
    cases h
  | configure row =>
    refine .inl (Block.rowOk_configure_ne ?_ hok)
    rintro rfl
    cases h
  | read row => cases row <;> cases h
  | readBuf row => cases row <;> cases h
  | getSerIndex => cases h
  | illegal => cases h

theorem Block.holds_of_pending {p : Params} {b : Block} {pos : Position} (hp : b.seq = some pos)
    (hok : b.rowOk p pos = true) (h : (b.pendingAt pos).isSome = true) : b.holdsItsEngine := by
  obtain ⟨⟨f, v⟩, hfv⟩ := Option.isSome_iff_exists.mp h
  exact Block.holds_of_writes hp hok (by rw [(b.effectAt_sync_iff pos f).mpr ⟨v, hfv⟩]; rfl)

/-- The fields of an engine that a write or a wait of `CTRL` changes are as before. -/
structure Engine.SameControl (en en' : Engine) : Prop where
  ctrl : en'.ctrl = en.ctrl
  syncbusy : en'.syncbusy = en.syncbusy
  pending : en'.pending = en.pending

theorem Effect.holds.sameControl {s : State} {b : Block} {en : Engine} {ef : Effect} (h : ef.holds s b en)
    (hw : ∀ f v, ef ≠ .wr f v) (hs : ∀ f, ef ≠ .sync f) : (s.engine b.e).SameControl en := by
  cases ef with
  | none => cases h; exact ⟨rfl, rfl, rfl⟩
  | wr f v => exact absurd rfl (hw f v)
  | sync f => exact absurd rfl (hs f)
  | clk => rcases h with rfl | ⟨v, rfl⟩ <;> exact ⟨rfl, rfl, rfl⟩
  | fmt => obtain ⟨v, rfl⟩ := h; exact ⟨rfl, rfl, rfl⟩
  | clr => cases h; exact ⟨rfl, rfl, rfl⟩

/-- An engine after a row that does not need it: at most a ready flag is cleared (R63). -/
theorem Effect.holds.of_not_writes {s : State} {b : Block} {en : Engine} {ef : Effect} (h : ef.holds s b en)
    (hw : ef.writes = false) :
    (s.engine b.e).SameControl en ∧ ∀ m, en.rxrdy.get m = true → (s.engine b.e).rxrdy.get m = true := by
  cases ef with
  | none => cases h; exact ⟨⟨rfl, rfl, rfl⟩, fun _ h => h⟩
  | clr =>
    cases h
    refine ⟨⟨rfl, rfl, rfl⟩, fun m hm => ?_⟩
    rw [Pair.get_set] at hm
    split at hm
    · cases hm
    · exact hm
  | _ => cases hw

/-- While a row steps, the engine that another block has keeps its `CTRL` fields, and no ready flag of it is
set (R51, R124). -/
theorem State.OwnershipInv.engine_of_other {s u : State} {id j : Nat} {b c : Block} {pos : Position}
    (h : s.OwnershipInv) (hb : s.block? id = some b) (hp : b.seq = some pos)
    (hu : rowStep pos id b s = .next u) (hc : s.block? j = some c) (hj : j ≠ id) (hco : c.holdsItsEngine) :
    (s.engine c.e).SameControl (u.engine c.e) ∧
      ∀ m, (u.engine c.e).rxrdy.get m = true → (s.engine c.e).rxrdy.get m = true := by
  obtain ⟨hen, hothers⟩ := rowStep_engine hb hu
  by_cases he : c.e = b.e
  · rw [he]
    refine hen.of_not_writes ?_
    by_contra hw
    exact hj (h.eq_of_holds hc hb he hco
      (Block.holds_of_writes hp ((h.block hb).rowOk pos hp) (by simpa using hw)))
  · rw [hothers _ he]
    exact ⟨⟨rfl, rfl, rfl⟩, fun _ h => h⟩

/-! ## The invariant -/

theorem CtrlFields.set_set {α : Type} (r : CtrlFields α) (f : CtrlField) (x y : α) :
    (r.set f x).set f y = r.set f y :=
  CtrlFields.ext_get fun g => by
    simp only [CtrlFields.get_set]
    split <;> rfl

theorem CtrlFields.all_set_self {α : Type} (f : CtrlField) (x : α) :
    (CtrlFields.all x).set f x = CtrlFields.all x :=
  CtrlFields.ext_get fun g => by simp [CtrlFields.get_set]

/-- After the wait for the one pending write none is pending (R45). -/
theorem Engine.sync_pending {en : Engine} {f : CtrlField} {v : Bool}
    (h : en.pending = (CtrlFields.all none).set f (some v)) (d : Engine) (o : SyncOutcome) :
    (en.sync f d o).pending = CtrlFields.all none := by
  by_cases hf : f = .swrst
  · subst hf; cases o <;> rfl
  · have hp : (en.sync f d o).pending = en.pending.set f none := by
      cases o
      · rw [Engine.sync_ok, Engine.syncOk_of_ne _ _ _ hf]
      · rw [Engine.sync_timeout, Engine.syncTimeout_of_ne _ _ _ hf]
    rw [hp, h, CtrlFields.set_set, CtrlFields.all_set_self]

/-- What the synchronisation invariant says of one block. -/
def State.WaitsRight (s : State) (b : Block) : Prop :=
  ∀ pos f v, b.seq = some pos → b.pendingAt pos = some (f, v) →
    (s.engine b.e).pending = (CtrlFields.all none).set f (some v) ∧ (s.engine b.e).syncbusy.get f = true

theorem State.SyncInv.waitsRight {s : State} (h : s.SyncInv) {id : Nat} {b : Block}
    (hb : s.block? id = some b) : s.WaitsRight b := fun pos f v hp hfv => h.1 id b pos f v hb hp hfv

/-- Nothing is pending in the engine of a block that has it and waits for nothing. -/
theorem State.SyncInv.quiet {s : State} (h : s.SyncInv) (ho : s.OwnershipInv) {id : Nat} {b : Block}
    (hb : s.block? id = some b) (hbo : b.holdsItsEngine)
    (hn : ∀ pos, b.seq = some pos → b.pendingAt pos = none) :
    (s.engine b.e).pending = CtrlFields.all none := by
  by_contra hne
  obtain ⟨j, c, pos, hc, he, hp, hw⟩ := h.2 b.e hne
  obtain rfl : j = id :=
    ho.eq_of_holds hc hb he (Block.holds_of_pending hp ((ho.block hc).rowOk pos hp) hw) hbo
  rw [hb] at hc
  cases hc
  simp [hn pos hp] at hw

theorem Block.pendingAt_congr {b b' : Block} (hc : b'.c = b.c) (hm : b'.m = b.m) (pos : Position) :
    b'.pendingAt pos = b.pendingAt pos := by
  unfold Block.pendingAt
  rw [hc, hm]

/-- A block that a row leaves waiting waits for what the row wrote. -/
theorem Block.Moves.effectAt_of_pending {p : Params} {b b' : Block} {pos pos' : Position} {f : CtrlField}
    {v : Bool} (h : b.Moves p pos b') (hp : b.seq = some pos) (hp' : b'.seq = some pos')
    (hfv : b'.pendingAt pos' = some (f, v)) : b.effectAt pos = .wr f v := by
  cases h with
  | hold hh =>
    rw [hp] at hp'
    cases hp'
    cases pos with
    | configure row => cases row <;> cases hh <;> cases hfv
    | read row => cases hfv
    | readBuf row => cases hfv
    | _ => cases hh
  | goto next w hn _ =>
    cases hp'
    exact Block.effectAt_of_pending_successor hn ((Block.pendingAt_congr rfl rfl pos').symm.trans hfv)
  | _ => cases hp'

/-- A row leaves its own block waiting right: the engine was quiet before the write. -/
theorem State.SyncInv.row_self {s u : State} {id : Nat} {b : Block} {pos : Position} (h : s.SyncInv)
    (ho : s.OwnershipInv) (hb : s.block? id = some b) (hp : b.seq = some pos)
    (hu : rowStep pos id b s = .next u) : u.WaitsRight (rowBlock s b pos) := by
  intro pos' f v hp' hfv
  have hwr := (rowBlock_moves s b pos).effectAt_of_pending hp hp' hfv
  obtain ⟨hen, -⟩ := rowStep_engine hb hu
  rw [hwr] at hen
  rw [(rowBlock_binding s b pos).1, show u.engine b.e = (s.engine b.e).wrCtrl f v from hen]
  have hquiet : (s.engine b.e).pending = CtrlFields.all none := by
    refine h.quiet ho hb (Block.holds_of_writes hp ((ho.block hb).rowOk pos hp) (by rw [hwr]; rfl)) ?_
    intro pos1 hp1
    rw [hp] at hp1
    cases hp1
    rw [Option.eq_none_iff_forall_ne_some]
    rintro ⟨g, x⟩ hg
    rw [(b.effectAt_sync_iff pos g).mpr ⟨x, hg⟩] at hwr
    cases hwr
  simp [hquiet]

/-- A write pending after a row is one that a block waits for. -/
theorem State.SyncInv.row_pending {s u : State} {id : Nat} {b : Block} {pos : Position} (h : s.SyncInv)
    (hb : s.block? id = some b) (hp : b.seq = some pos) (hu : rowStep pos id b s = .next u) (e : Nat)
    (hne : (u.engine e).pending ≠ CtrlFields.all none) :
    ∃ j c pos', u.block? j = some c ∧ c.e = e ∧ c.seq = some pos' ∧ (c.pendingAt pos').isSome = true := by
  have hblocks := rowStep_block? hb hu
  obtain ⟨hen, hothers⟩ := rowStep_engine hb hu
  have hkeep : (s.engine e).pending ≠ CtrlFields.all none → (e = b.e → ∀ f, b.effectAt pos ≠ .sync f) →
      ∃ j c pos', u.block? j = some c ∧ c.e = e ∧ c.seq = some pos' ∧ (c.pendingAt pos').isSome = true := by
    intro hs hns
    obtain ⟨j, c, pos', hc, he, hp', hw⟩ := h.2 e hs
    refine ⟨j, c, pos', ?_, he, hp', hw⟩
    rw [hblocks, if_neg]
    · exact hc
    · rintro rfl
      rw [hb] at hc
      cases hc
      rw [hp] at hp'
      cases hp'
      obtain ⟨⟨f, v⟩, hfv⟩ := Option.isSome_iff_exists.mp hw
      exact hns he.symm f ((b.effectAt_sync_iff pos f).mpr ⟨v, hfv⟩)
  by_cases he : e = b.e
  · subst he
    cases hef : b.effectAt pos with
    | wr f v =>
      obtain ⟨next, hnext, hfv⟩ := rowBlock_of_wr (s := s) hef
      refine ⟨id, b.goto next, next, ?_, rfl, rfl, ?_⟩
      · rw [hblocks, if_pos rfl, hnext]
      · rw [Block.pendingAt_congr (b := b) (b' := b.goto next) rfl rfl, hfv]; rfl
    | sync f =>
      obtain ⟨v, hfv⟩ := (b.effectAt_sync_iff pos f).mp hef
      rw [hef] at hen
      rw [show u.engine b.e = (s.engine b.e).sync f s.answer.engine s.answer.sync from hen] at hne
      exact absurd (Engine.sync_pending (h.1 id b pos f v hb hp hfv).1 _ _) hne
    | none | clk | fmt | clr =>
      rw [(hen.sameControl (by simp [hef]) (by simp [hef])).pending] at hne
      exact hkeep hne (by simp [hef])
  · rw [hothers e he] at hne
    exact hkeep hne fun h => absurd h he

theorem State.SyncInv.row {s u : State} {id : Nat} {b : Block} {pos : Position} (h : s.SyncInv)
    (ho : s.OwnershipInv) (hb : s.block? id = some b) (hp : b.seq = some pos)
    (hu : rowStep pos id b s = .next u) : u.SyncInv := by
  refine ⟨fun j c pos' f v hc hp' hfv => ?_, h.row_pending hb hp hu⟩
  rw [rowStep_block? hb hu] at hc
  split at hc
  · cases hc
    exact h.row_self ho hb hp hu pos' f v hp' hfv
  · next hj =>
    obtain ⟨hsame, -⟩ := ho.engine_of_other hb hp hu hc hj
      (Block.holds_of_pending hp' ((ho.block hc).rowOk pos' hp') (by rw [hfv]; rfl))
    rw [hsame.pending, hsame.syncbusy]
    exact h.1 j c pos' f v hc hp' hfv

theorem Block.pendingAt_first (b : Block) (d : Except DecodeError Instr) :
    b.pendingAt (Position.first d) = none := by
  rcases d with _ | i
  · rfl
  · cases i <;> rfl

/-- The host writes no engine register, starts no wait, and ends none. -/
theorem State.SyncInv.host {s u : State} (h : s.SyncInv) (ho : s.OwnershipInv) (hu : hostStep s = .next u) :
    u.SyncInv := by
  rcases hostStep_cases hu with ⟨_, _, _, rfl⟩ | ⟨rest, port, b, b', hb, hw, rfl⟩ | ⟨rest, cp, dp, k, rfl⟩
  · exact h
  · refine ⟨fun j c pos f v hc hp hfv => ?_, fun e he => ?_⟩
    · rw [State.block?_setBlock] at hc
      split at hc
      · cases hc
        rcases hw.seq with ⟨hs, -⟩ | ⟨-, d, hs⟩
        · rw [Block.pendingAt_congr hw.c hw.m] at hfv
          rw [hw.e]
          exact h.1 port b pos f v hb (hs ▸ hp) hfv
        · rw [hs] at hp
          cases hp
          rw [Block.pendingAt_first] at hfv
          cases hfv
      · exact h.1 j c pos f v hc hp hfv
    · obtain ⟨j, c, pos, hc, hce, hp, hpend⟩ := h.2 e he
      by_cases hj : j = port
      · subst hj
        rw [hb] at hc
        cases hc
        rcases hw.seq with ⟨hs, -⟩ | ⟨hn, -⟩
        · refine ⟨j, b', pos, State.block?_setBlock_self _ _ _, by rw [hw.e, hce], by rw [hs, hp], ?_⟩
          rw [Block.pendingAt_congr hw.c hw.m]
          exact hpend
        · rw [hn] at hp
          cases hp
      · exact ⟨j, c, pos, by rw [State.block?_setBlock, if_neg hj]; exact hc, hce, hp, hpend⟩
  · refine ⟨fun j c pos f v hc hp hfv => ?_, fun e he => ?_⟩
    · rw [State.block?_construct] at hc
      split at hc
      · cases hc
        cases hp
      · exact h.1 j c pos f v hc hp hfv
    · obtain ⟨j, c, pos, hc, hrest⟩ := h.2 e he
      refine ⟨j, c, pos, ?_, hrest⟩
      rw [State.block?_construct, if_neg]
      · exact hc
      · rintro rfl
        have hnone : s.block? s.nextId = none := ho.fresh (Nat.le_refl _)
        exact absurd (hnone.symm.trans hc) (by simp)

/-- A producer's step leaves `CTRL` alone (R155). -/
theorem producerStep_sameControl (s : State) (e : Nat) (m : UnitIx) (j : Nat) :
    (s.engine j).SameControl ((producerStep e m s).engine j) := by
  unfold producerStep
  split
  · by_cases hj : j = e
    · subst hj; rw [State.engine_deliver_self]; exact ⟨rfl, rfl, rfl⟩
    · rw [(s.deliver_engineOnly e m _).engine j hj]; exact ⟨rfl, rfl, rfl⟩
  · exact ⟨rfl, rfl, rfl⟩

theorem State.SyncInv.producer {s : State} (h : s.SyncInv) (e : Nat) (m : UnitIx) :
    (producerStep e m s).SyncInv := by
  have hblock := (producerStep_engineOnly s e m).block?
  have hsame := producerStep_sameControl s e m
  refine ⟨fun j c pos f v hc hp hfv => ?_, fun j hj => ?_⟩
  · rw [(hsame c.e).pending, (hsame c.e).syncbusy]
    exact h.1 j c pos f v (hblock j ▸ hc) hp hfv
  · rw [(hsame j).pending] at hj
    obtain ⟨i, c, pos, hc, hrest⟩ := h.2 j hj
    exact ⟨i, c, pos, (hblock i).trans hc, hrest⟩

/-- Settles O46: each agent's step keeps the synchronisation invariant. -/
theorem synchronisationKept : Obligations.SynchronisationKept := by
  intro s t ho h ht
  obtain ⟨u, rfl, hcases⟩ := step_cases ht
  show u.SyncInv
  rcases hcases with ⟨-, hu⟩ | ⟨id, b, pos, -, hb, hp, hu⟩ | ⟨-, rfl⟩ | ⟨e, m, -, rfl⟩
  · exact h.host ho hu
  · exact h.row ho hb hp hu
  · exact h
  · exact h.producer e m

end Sys2Proof.Machine
end

section
/-! The engine of an `IDLE` block (R49, R116, R160): which rows leave it untouched, and what BEGIN's rows past the
reset make of it. -/

namespace Sys2Proof.Machine

/-! ## Clean engines -/

/-- `CTRL` and both ready flags are 0, and `SYNCBUSY` is `busy`. -/
structure Engine.Clean (en : Engine) (busy : CtrlFields Bool) : Prop where
  ctrl : en.ctrl = CtrlFields.all false
  rxrdy : en.rxrdy = ⟨false, false⟩
  syncbusy : en.syncbusy = busy

theorem Pair.eq_false_iff (p : Pair Bool) : p = ⟨false, false⟩ ↔ ∀ m, p.get m ≠ true := by
  obtain ⟨a, c⟩ := p
  constructor
  · intro h m
    cases h
    cases m <;> simp [Pair.get]
  · intro h
    have h0 := h .u0
    have h1 := h .u1
    simp only [Pair.get, ne_eq, Bool.not_eq_true] at h0 h1
    rw [h0, h1]

/-- A clean engine stays clean where `CTRL` stays and no ready flag is set. -/
theorem Engine.Clean.of_sameControl {en en' : Engine} {busy : CtrlFields Bool} (h : en.Clean busy)
    (hs : en.SameControl en') (hr : ∀ m, en'.rxrdy.get m = true → en.rxrdy.get m = true) :
    en'.Clean busy :=
  ⟨hs.ctrl.trans h.ctrl,
    (Pair.eq_false_iff _).mpr fun m hm => (Pair.eq_false_iff _).mp h.rxrdy m (hr m hm),
    hs.syncbusy.trans h.syncbusy⟩

theorem Engine.resetTo_clean (d : Engine) : (Engine.resetTo d).Clean (CtrlFields.all false) :=
  ⟨rfl, rfl, rfl⟩

theorem Engine.Clean.wrCtrl {en : Engine} (h : en.Clean (CtrlFields.all false)) (f : CtrlField) (v : Bool) :
    (en.wrCtrl f v).Clean ((CtrlFields.all false).set f true) :=
  ⟨h.ctrl, h.rxrdy, by rw [Engine.wrCtrl_syncbusy, h.syncbusy]⟩

/-- The wait for the one pending write of 0 ends clean (R46). -/
theorem Engine.Clean.syncOk {en : Engine} {f : CtrlField} (h : en.Clean ((CtrlFields.all false).set f true))
    (hf : f ≠ .swrst) (hp : en.pending = (CtrlFields.all none).set f (some false)) (d : Engine) :
    (en.syncOk f d).Clean (CtrlFields.all false) := by
  refine ⟨?_, (Pair.eq_false_iff _).mpr fun m hm =>
    (Pair.eq_false_iff _).mp h.rxrdy m (Engine.rxrdy_syncOk_le en d f m hm), ?_⟩
  · rw [Engine.syncOk_of_ne _ _ _ hf]
    simp [h.ctrl, hp, CtrlFields.all_set_self]
  · rw [Engine.syncOk_of_ne _ _ _ hf]
    simp [h.syncbusy, CtrlFields.set_set, CtrlFields.all_set_self]

/-! ## Rows that leave an `IDLE` block's engine untouched -/

/-- The positions up to which no row of CONFIGURE or END has written the engine. -/
def Position.untouched : Position → Bool
  | .configure .c0 | .configure .c1 | .end_ .e0 => true
  | .configure _ | .end_ _ => false
  | _ => true

theorem Block.engineClean_of_none {b : Block} (hp : b.seq = none) :
    b.engineClean = true ↔ b.lifecycle = .idle := by
  unfold Block.engineClean
  rw [hp]
  cases b.lifecycle <;> simp

theorem Block.finish_engineClean (b : Block) (code : ErrCode) :
    (b.finish code).engineClean = true ↔ b.lifecycle = .idle :=
  Block.engineClean_of_none rfl

theorem Block.engineClean_of_seq {b : Block} {pos : Position} (hp : b.seq = some pos)
    (hn : ∀ row, pos ≠ .begin row) :
    b.engineClean = true ↔ b.lifecycle = .idle ∧ pos.untouched = true := by
  unfold Block.engineClean
  rw [hp]
  cases pos with
  | begin row => exact absurd rfl (hn row)
  | end_ row => cases b.lifecycle <;> cases row <;> simp [Position.untouched]
  | configure row => cases b.lifecycle <;> cases row <;> simp [Position.untouched]
  | _ => cases b.lifecycle <;> simp [Position.untouched]

/-- In BEGIN the engine is clean past the reset; before it, at B0 of an `IDLE` block alone. -/
theorem Block.engineClean_of_begin {p : Params} {b : Block} {row : BeginRow} (hp : b.seq = some (.begin row))
    (hok : b.rowOk p (.begin row) = true) :
    b.engineClean = true ↔ row = .b0 ∧ b.lifecycle = .idle ∨
      row = .b6 ∨ row = .b7 ∨ row = .b8 ∨ row = .b9 ∨ row = .b10 := by
  unfold Block.engineClean
  rw [hp]
  cases row with
  | b0 => cases b.lifecycle <;> simp
  | _ =>
    have hl := Block.rowOk_begin (by simp) hok
    simp [hl]

theorem Position.untouched_of_successor {pos next : Position} (hb : ∀ row, pos ≠ .begin row)
    (hn : next ∈ pos.successors) (h : next.untouched = true) : pos.untouched = true := by
  cases pos with
  | begin row => exact absurd rfl (hb row)
  | end_ row => cases row <;> simp [Position.successors] at hn <;> simp_all [Position.untouched]
  | configure row => cases row <;> simp [Position.successors] at hn <;> simp_all [Position.untouched]
  | _ => rfl

theorem Position.untouched_of_mayFinish {pos : Position} (h : pos.mayFinish = true) :
    pos.untouched = true := by
  cases pos with
  | end_ row => cases row <;> first | rfl | cases h
  | configure row => cases row <;> first | rfl | cases h
  | _ => rfl

theorem Block.writes_of_untouched {b : Block} {pos : Position} (hb : ∀ row, pos ≠ .begin row)
    (h : pos.untouched = true) : (b.effectAt pos).writes = false := by
  cases pos with
  | begin row => exact absurd rfl (hb row)
  | end_ row => cases row <;> first | rfl | cases h
  | configure row => cases row <;> first | rfl | cases h
  | read row => cases row <;> rfl
  | readBuf row => cases row <;> rfl
  | _ => rfl

theorem Block.cleanBusy_of_none {b : Block} (hp : b.seq = none) : b.cleanBusy = CtrlFields.all false := by
  simp [Block.cleanBusy, hp]

theorem Block.cleanBusy_of_quiet {b : Block} {pos : Position} (hp : b.seq = some pos)
    (hn : b.pendingAt pos = none) : b.cleanBusy = CtrlFields.all false := by
  simp [Block.cleanBusy, hp, hn]

theorem Block.cleanBusy_of_pending {b : Block} {pos : Position} {f : CtrlField} {v : Bool}
    (hp : b.seq = some pos) (hn : b.pendingAt pos = some (f, v)) :
    b.cleanBusy = (CtrlFields.all false).set f true := by
  simp [Block.cleanBusy, hp, hn]

/-- A position whose row does not need the engine waits for nothing. -/
theorem Block.pendingAt_of_not_writes {b : Block} {pos : Position} (h : (b.effectAt pos).writes = false) :
    b.pendingAt pos = none := by
  rw [Option.eq_none_iff_forall_ne_some]
  rintro ⟨f, v⟩ hfv
  rw [(b.effectAt_sync_iff pos f).mpr ⟨v, hfv⟩] at h
  cases h

/-- The engine of an `IDLE` block is not waited for. -/
theorem Block.cleanBusy_of_idle {p : Params} {b : Block} (hl : b.lifecycle = .idle)
    (hok : ∀ pos, b.seq = some pos → b.rowOk p pos = true) (hc : b.engineClean = true) :
    b.cleanBusy = CtrlFields.all false := by
  cases hp : b.seq with
  | none => exact Block.cleanBusy_of_none hp
  | some pos =>
    refine Block.cleanBusy_of_quiet hp ?_
    by_cases hb : ∃ row, pos = .begin row
    · obtain ⟨row, rfl⟩ := hb
      by_cases hrow : row = .b0
      · rw [hrow]; rfl
      · have := Block.rowOk_begin hrow (hok _ hp)
        rw [hl] at this
        cases this
    · have hb' : ∀ row, pos ≠ .begin row := fun row h => hb ⟨row, h⟩
      exact Block.pendingAt_of_not_writes
        (Block.writes_of_untouched hb' ((Block.engineClean_of_seq hp hb').mp hc).2)

/-- A block whose engine must be clean has it (R124). -/
theorem Block.holds_of_engineClean {p : Params} {b : Block}
    (hok : ∀ pos, b.seq = some pos → b.rowOk p pos = true) (hc : b.engineClean = true) :
    b.holdsItsEngine := by
  cases hp : b.seq with
  | none => exact .inl (by simp [(Block.engineClean_of_none hp).mp hc])
  | some pos =>
    by_cases hb : ∃ row, pos = .begin row
    · obtain ⟨row, rfl⟩ := hb
      rcases (Block.engineClean_of_begin hp (hok _ hp)).mp hc with ⟨-, hl⟩ | rfl | rfl | rfl | rfl | rfl
      · exact .inl (by simp [hl])
      all_goals exact .inr ⟨_, hp, rfl⟩
    · exact .inl (by simp [((Block.engineClean_of_seq hp fun row h => hb ⟨row, h⟩).mp hc).1])

/-- Outside BEGIN a row leaves its block with a clean engine only where it was clean and the row does not need
it. -/
theorem Block.Moves.engineClean {p : Params} {b b' : Block} {pos : Position} (h : b.Moves p pos b')
    (hp : b.seq = some pos) (hb : ∀ row, pos ≠ .begin row) (hc : b'.engineClean = true) :
    b.engineClean = true ∧ b'.lifecycle = .idle ∧ (b.effectAt pos).writes = false := by
  have hclean : b.lifecycle = .idle → pos.untouched = true →
      b.engineClean = true ∧ b.lifecycle = .idle ∧ (b.effectAt pos).writes = false := fun hl hu =>
    ⟨(Block.engineClean_of_seq hp hb).mpr ⟨hl, hu⟩, hl, Block.writes_of_untouched hb hu⟩
  cases h with
  | hold _ =>
    obtain ⟨hl, hu⟩ := (Block.engineClean_of_seq hp hb).mp hc
    exact hclean hl hu
  | goto next w hn _ =>
    obtain ⟨hl, hu⟩ := (Block.engineClean_of_seq rfl (Position.successors_not_begin hb hn)).mp hc
    exact hclean hl (Position.untouched_of_successor hb hn hu)
  | finish code w r hf =>
    exact hclean ((Block.finish_engineClean { b with work := w, resWord := r } code).mp hc)
      (Position.untouched_of_mayFinish hf)
  | fatal _ => cases (Block.engineClean_of_none rfl).mp hc
  | commitBegin hpos => exact absurd hpos (hb _)
  | commitEnd _ => cases (Block.engineClean_of_none rfl).mp hc
  | commitConfigure _ _ _ _ _ => cases (Block.engineClean_of_none rfl).mp hc

/-! ## The invariant -/

/-- What the invariant says of one block, but for its last clause, which follows with ownership. -/
def State.CleanFor (s : State) (b : Block) : Prop :=
  b.engineClean = true → (s.engine b.e).Clean b.cleanBusy

theorem State.IdleInv.cleanFor {s : State} (h : s.IdleInv) {id : Nat} {b : Block} (hb : s.block? id = some b) :
    s.CleanFor b := fun hc =>
  have ⟨hctrl, hready, hbusy, _⟩ := h id b hb hc
  ⟨hctrl, hready, hbusy⟩

theorem State.IdleInv.of_cleanFor {s : State} (ho : s.OwnershipInv)
    (h : ∀ id b, s.block? id = some b → s.CleanFor b) : s.IdleInv := fun id b hb hc =>
  ⟨(h id b hb hc).ctrl, (h id b hb hc).rxrdy, (h id b hb hc).syncbusy, fun hl =>
    (h id b hb hc).syncbusy.trans (Block.cleanBusy_of_idle hl (ho.block hb).rowOk hc)⟩

/-- BEGIN's rows from the reset on keep its engine clean (R49, R110). -/
theorem rowBlock_begin_clean {s : State} {b : Block} {row : BeginRow} {en : Engine}
    (hp : b.seq = some (.begin row)) (hok : b.rowOk s.params (.begin row) = true) (hi : s.CleanFor b)
    (hw : s.WaitsRight b) (hen : (b.effectAt (.begin row)).holds s b en)
    (hc : (rowBlock s b (.begin row)).engineClean = true) :
    en.Clean (rowBlock s b (.begin row)).cleanBusy := by
  have hbegin := Block.engineClean_of_begin hp hok
  have hnone : ∀ code, b.lifecycle = .uninit → (b.finish code).engineClean = true → False := fun _ hl hc =>
    by cases hl.symm.trans ((b.finish_engineClean _).mp hc)
  have hgoto : ∀ row', row' ≠ .b0 → b.lifecycle = .uninit → (b.goto (.begin row')).engineClean = true →
      row' = .b6 ∨ row' = .b7 ∨ row' = .b8 ∨ row' = .b9 ∨ row' = .b10 := fun row' h0 hl hc =>
    ((Block.engineClean_of_begin (p := s.params) rfl (by cases row' <;> simp_all [Block.rowOk, Block.goto])).mp
      hc).resolve_left fun h => h0 h.1
  cases row with
  | b0 =>
    simp only [rowBlock] at hc ⊢
    cases hen
    split at hc
    · next hl =>
      rw [if_pos hl, Block.cleanBusy_of_none rfl, ← Block.cleanBusy_of_quiet hp rfl]
      exact hi (hbegin.mpr (.inl ⟨rfl, (b.finish_engineClean _).mp hc⟩))
    · next hl => simpa using hgoto .b1 (by simp) (not_not.mp hl) hc
  | b1 =>
    simp only [rowBlock] at hc
    split at hc
    · exact (hnone _ (Block.rowOk_begin (by simp) hok) hc).elim
    · simpa using hgoto .b2 (by simp) (Block.rowOk_begin (by simp) hok) hc
  | b2 =>
    simp only [rowBlock] at hc
    cases hcall : s.answer.call <;> rw [hcall] at hc
    · simpa using hgoto .b3 (by simp) (Block.rowOk_begin (by simp) hok) hc
    · exact (hnone _ (Block.rowOk_begin (by simp) hok) hc).elim
  | b3 =>
    simp only [rowBlock] at hc
    cases hcall : s.answer.call <;> rw [hcall] at hc
    · simpa using hgoto .b4 (by simp) (Block.rowOk_begin (by simp) hok) hc
    · simpa using hgoto .b3f (by simp) (Block.rowOk_begin (by simp) hok) hc
  | b3f => exact (hnone _ (Block.rowOk_begin (by simp) hok) hc).elim
  | b4 => simpa using hgoto .b5 (by simp) (Block.rowOk_begin (by simp) hok) hc
  | b5 =>
    simp only [rowBlock] at hc ⊢
    cases hen
    cases hsync : s.answer.sync <;> rw [hsync] at hc
    · exact Engine.resetTo_clean _
    · cases (Block.engineClean_of_none rfl).mp hc
  | b6 | b8 =>
    cases hen
    have hcl := hi (hbegin.mpr (by simp))
    rw [Block.cleanBusy_of_quiet hp rfl] at hcl
    exact hcl.wrCtrl _ false
  | b7 | b9 =>
    simp only [rowBlock] at hc ⊢
    cases hen
    have hcl := hi (hbegin.mpr (by simp))
    rw [Block.cleanBusy_of_pending hp rfl] at hcl
    cases hsync : s.answer.sync <;> rw [hsync] at hc
    · exact hcl.syncOk (by simp) (hw _ _ _ hp rfl).1 _
    · cases (Block.engineClean_of_none rfl).mp hc
  | b10 =>
    cases hen
    have hcl := hi (hbegin.mpr (by simp))
    rwa [Block.cleanBusy_of_quiet hp rfl] at hcl

theorem State.IdleInv.row_self {s u : State} {id : Nat} {b : Block} {pos : Position} (h : s.IdleInv)
    (ho : s.OwnershipInv) (hs : s.SyncInv) (hb : s.block? id = some b) (hp : b.seq = some pos)
    (hu : rowStep pos id b s = .next u) : u.CleanFor (rowBlock s b pos) := by
  intro hc
  obtain ⟨hen, -⟩ := rowStep_engine hb hu
  rw [(rowBlock_binding s b pos).1]
  have hok := (ho.block hb).rowOk
  by_cases hbegin : ∃ row, pos = .begin row
  · obtain ⟨row, rfl⟩ := hbegin
    exact rowBlock_begin_clean hp (hok _ hp) (h.cleanFor hb) (hs.waitsRight hb) hen hc
  · have hn : ∀ row, pos ≠ .begin row := fun row hr => hbegin ⟨row, hr⟩
    have hmoves := rowBlock_moves s b pos
    obtain ⟨hcb, hl, hw⟩ := hmoves.engineClean hp hn hc
    obtain ⟨hsame, hready⟩ := hen.of_not_writes hw
    have hcl := h.cleanFor hb hcb
    rw [Block.cleanBusy_of_quiet hp (Block.pendingAt_of_not_writes hw)] at hcl
    rw [Block.cleanBusy_of_idle hl (hmoves.rowOk hp (hok pos hp)) hc]
    exact hcl.of_sameControl hsame hready

theorem State.IdleInv.row {s u : State} {id : Nat} {b : Block} {pos : Position} (h : s.IdleInv)
    (ho : s.OwnershipInv) (hs : s.SyncInv) (hb : s.block? id = some b) (hp : b.seq = some pos)
    (hu : rowStep pos id b s = .next u) : u.IdleInv := by
  refine .of_cleanFor (ho.row hb hp hu) fun j c hc => ?_
  rw [rowStep_block? hb hu] at hc
  split at hc
  · cases hc
    exact h.row_self ho hs hb hp hu
  · next hj =>
    intro hclean
    obtain ⟨hsame, hready⟩ := ho.engine_of_other hb hp hu hc hj
      (Block.holds_of_engineClean (ho.block hc).rowOk hclean)
    exact (h.cleanFor hc hclean).of_sameControl hsame hready

/-- A first row has touched no engine. -/
theorem Block.engineClean_first {b : Block} {d : Except DecodeError Instr}
    (hp : b.seq = some (Position.first d)) (hc : b.engineClean = true) : b.lifecycle = .idle := by
  by_cases hb : ∃ row, Position.first d = .begin row
  · obtain ⟨row, hrow⟩ := hb
    have hrow0 : row = .b0 := by
      rcases d with _ | i
      · cases hrow
      · cases i <;> cases hrow; rfl
    rw [hrow, hrow0] at hp
    rcases (Block.engineClean_of_begin (p := Params.p0) hp rfl).mp hc with ⟨-, hl⟩ | h
    · exact hl
    · simp at h
  · exact ((Block.engineClean_of_seq hp fun row h => hb ⟨row, h⟩).mp hc).1

theorem Block.PortWritten.engineClean {b b' : Block} (h : b.PortWritten b') (hc : b'.engineClean = true) :
    b.engineClean = true ∧ b'.cleanBusy = b.cleanBusy := by
  rcases h.seq with ⟨hs, -⟩ | ⟨hn, d, hs⟩
  · refine ⟨?_, ?_⟩
    · unfold Block.engineClean at hc ⊢
      rw [h.lifecycle, hs] at hc
      exact hc
    · have hpend : b'.pendingAt = b.pendingAt := funext (Block.pendingAt_congr h.c h.m)
      unfold Block.cleanBusy
      rw [hs, hpend]
  · refine ⟨(Block.engineClean_of_none hn).mpr (h.lifecycle ▸ Block.engineClean_first hs hc), ?_⟩
    rw [Block.cleanBusy_of_none hn, Block.cleanBusy_of_quiet hs (Block.pendingAt_first b' d)]

theorem State.IdleInv.host {s u : State} (h : s.IdleInv) (ho : s.OwnershipInv) (hu : hostStep s = .next u) :
    u.IdleInv := by
  refine .of_cleanFor (ho.host hu) fun j c hc hclean => ?_
  rcases hostStep_cases hu with ⟨_, _, _, rfl⟩ | ⟨rest, port, b, b', hb, hw, rfl⟩ | ⟨rest, cp, dp, k, rfl⟩
  · exact h.cleanFor hc hclean
  · rw [State.block?_setBlock] at hc
    split at hc
    · cases hc
      obtain ⟨hcb, hbusy⟩ := hw.engineClean hclean
      rw [hbusy, hw.e]
      exact h.cleanFor hb hcb
    · exact h.cleanFor hc hclean
  · rw [State.block?_construct] at hc
    split at hc
    · cases hc
      cases (Block.engineClean_of_none rfl).mp hclean
    · exact h.cleanFor hc hclean

/-- No serializer of a clean engine is active, so its producer does nothing (R43, R155). -/
theorem State.IdleInv.producer {s : State} (h : s.IdleInv) (ho : s.OwnershipInv) (e : Nat) (m : UnitIx) :
    (producerStep e m s).IdleInv := by
  have hstep := producerStep_engineOnly s e m
  refine .of_cleanFor (ho.engineOnly hstep) fun j c hc hclean => ?_
  have hcs : s.block? j = some c := (hstep.block? j).symm.trans hc
  have hcl := h.cleanFor hcs hclean
  by_cases he : c.e = e
  · subst he
    rw [producerStep_of_not_active (.inr (State.rxActive_of_disabled (by rw [hcl.ctrl]; rfl) m))]
    exact hcl
  · rw [hstep.engine c.e he]
    exact hcl

/-- Settles O48: each agent's step keeps the engines of `IDLE` blocks clean. -/
theorem idleEngineStaysClean : Obligations.IdleEngineStaysClean := by
  intro s t ho hs h ht
  obtain ⟨u, rfl, hcases⟩ := step_cases ht
  show u.IdleInv
  rcases hcases with ⟨-, hu⟩ | ⟨id, b, pos, -, hb, hp, hu⟩ | ⟨-, rfl⟩ | ⟨e, m, -, rfl⟩
  · exact h.host ho hu
  · exact h.row ho hs hb hp hu
  · exact h
  · exact h.producer ho e m

end Sys2Proof.Machine
end

section
/-! ClockConfig (R23, R28, R105): what a block says of it, and the rows that write it. -/

namespace Sys2Proof.Machine

/-- ClockConfig is a result of the calculator or `(0, 0, 0)`, and valid exactly in `RUNNING`. -/
structure Block.CfgOk (p : Params) (b : Block) : Prop where
  valid : b.cfgValid = true → ∃ rate, calculate p rate = .ok b.cfgG b.cfgS b.cfgF
  invalid : b.cfgValid = false → b.cfgG = 0 ∧ b.cfgS = 0 ∧ b.cfgF = 0
  running : b.cfgValid = true ↔ b.lifecycle = .running

/-- Past C1 the register `r` holds the calculator's `Ok` for the latched rate. -/
def Block.CalcOk (p : Params) (b : Block) : Prop :=
  ∀ row, b.seq = some (.configure row) → 2 ≤ row.index →
    ∃ g q f, b.work.r = .ok g q f ∧ calculate p b.work.rate.toNat = .ok g q f

theorem State.clockInv_iff (s : State) :
    s.ClockInv ↔ ∀ id b, s.block? id = some b → b.CfgOk s.params ∧ b.CalcOk s.params :=
  ⟨fun h id b hb =>
    have ⟨hv, hi, hr, hc⟩ := h id b hb
    ⟨⟨hv, hi, hr⟩, hc⟩,
   fun h id b hb =>
    have ⟨hcfg, hcalc⟩ := h id b hb
    ⟨hcfg.valid, hcfg.invalid, hcfg.running, hcalc⟩⟩

/-- An invalidated ClockConfig, in a lifecycle other than `RUNNING` (R116, R121, R136). -/
theorem Block.CfgOk.of_invalid {p : Params} {b : Block} (hv : b.cfgValid = false) (hg : b.cfgG = 0)
    (hs : b.cfgS = 0) (hf : b.cfgF = 0) (hl : b.lifecycle ≠ .running) : b.CfgOk p :=
  ⟨fun h => (by rw [hv] at h; cases h), fun _ => ⟨hg, hs, hf⟩, iff_of_false (by simp [hv]) hl⟩

theorem Block.Moves.cfgOk {p : Params} {b b' : Block} {pos : Position} (h : b.Moves p pos b')
    (hp : b.seq = some pos) (hcfg : b.CfgOk p) (hcalc : b.CalcOk p) : b'.CfgOk p := by
  cases h with
  | hold _ => exact hcfg
  | goto _ _ _ _ => exact ⟨hcfg.valid, hcfg.invalid, hcfg.running⟩
  | finish _ _ _ _ => exact ⟨hcfg.valid, hcfg.invalid, hcfg.running⟩
  | fatal _ | commitBegin _ | commitEnd _ =>
    exact .of_invalid rfl rfl rfl rfl
      (by simp [Block.fatal, Block.commitBegin, Block.commitEnd, Block.finish])
  | commitConfigure g q f hpos hr =>
    subst hpos
    obtain ⟨g', q', f', hr', hcal⟩ := hcalc .c19 hp (by decide)
    rw [hr] at hr'
    cases hr'
    exact ⟨fun _ => ⟨_, hcal⟩, (by simp [Block.commitConfigure, Block.finish]), iff_of_true rfl rfl⟩

/-- A row past C1 that does not end CONFIGURE leaves the working registers alone. -/
theorem rowBlock_configure_work {s : State} {b : Block} {row : ConfigureRow} (h : 2 ≤ row.index)
    (hn : (rowBlock s b (.configure row)).seq ≠ none) : (rowBlock s b (.configure row)).work = b.work := by
  cases row <;> simp only [rowBlock] at hn ⊢
  case c0 | c1 => simp [ConfigureRow.index] at h
  case c3 | c5 | c7 | c14 | c16 | c18 => cases s.answer.sync <;> rfl
  case c8 => split <;> [split; skip] <;> rfl
  case c9 | c10 | c11 | c19 => split <;> rfl
  all_goals rfl

theorem Position.configure_of_successor {pos : Position} {row : ConfigureRow}
    (hn : Position.configure row ∈ pos.successors) :
    ∃ row', pos = .configure row' ∧ (2 ≤ row.index → 2 ≤ row'.index ∨ row' = .c1) := by
  cases pos with
  | configure row' =>
    refine ⟨row', rfl, fun h => ?_⟩
    cases row' <;> simp [Position.successors] at hn <;> simp_all [ConfigureRow.index]
  | begin row' => cases row' <;> simp [Position.successors] at hn
  | end_ row' => cases row' <;> simp [Position.successors] at hn
  | read row' => cases row' <;> simp [Position.successors] at hn
  | readBuf row' => cases row' <;> simp [Position.successors] at hn
  | getSerIndex => cases hn
  | illegal => cases hn

/-- C1 goes on only with the calculator's `Ok` (R129). -/
theorem rowBlock_calcOk {s : State} {b : Block} {pos : Position} (hp : b.seq = some pos)
    (hcalc : b.CalcOk s.params) : (rowBlock s b pos).CalcOk s.params := by
  intro row hrow hge
  have hpos : ∃ row', pos = .configure row' ∧ (2 ≤ row'.index ∨ row' = .c1) := by
    have hmoves := rowBlock_moves s b pos
    generalize rowBlock s b pos = b' at hmoves hrow
    cases hmoves with
    | hold _ => rw [hp] at hrow; cases hrow; exact ⟨row, rfl, .inl hge⟩
    | goto next w hn _ =>
      cases hrow
      obtain ⟨row', rfl, h⟩ := Position.configure_of_successor hn
      exact ⟨row', rfl, h hge⟩
    | _ => cases hrow
  obtain ⟨row', rfl, hge' | rfl⟩ := hpos
  · rw [rowBlock_configure_work hge' (by simp [hrow])]
    exact hcalc row' hp hge'
  · simp only [rowBlock] at hrow ⊢
    cases hcal : calculate s.params b.work.rate.toNat with
    | ok g q f => exact ⟨g, q, f, rfl, hcal⟩
    | fail why => rw [hcal] at hrow; cases hrow

theorem Block.PortWritten.clockOk {p : Params} {b b' : Block} (h : b.PortWritten b') (hcfg : b.CfgOk p)
    (hcalc : b.CalcOk p) : b'.CfgOk p ∧ b'.CalcOk p := by
  refine ⟨⟨?_, ?_, ?_⟩, fun row hrow hge => ?_⟩
  · rw [h.cfgValid, h.cfgG, h.cfgS, h.cfgF]; exact hcfg.valid
  · rw [h.cfgValid, h.cfgG, h.cfgS, h.cfgF]; exact hcfg.invalid
  · rw [h.cfgValid, h.lifecycle]; exact hcfg.running
  · rcases h.seq with ⟨hs, hw⟩ | ⟨-, d, hs⟩
    · rw [hw]; exact hcalc row (hs ▸ hrow) hge
    · rw [hs] at hrow
      rcases d with _ | i
      · cases hrow
      · cases i <;> cases hrow
        exact absurd hge (by decide)

/-- Settles O49, by what each agent's step makes of a block. -/
theorem clockConfigKept : Obligations.ClockConfigKept := by
  intro s t h ht
  rw [State.clockInv_iff] at h ⊢
  rw [step_params ht]
  intro id b hb
  obtain ⟨u, rfl, hcases⟩ := step_cases ht
  rw [State.block?_nextAnswer] at hb
  rcases hcases with ⟨-, hu⟩ | ⟨j, c, pos, -, hc, hp, hu⟩ | ⟨-, rfl⟩ | ⟨e, m, -, rfl⟩
  · rcases hostStep_cases hu with ⟨_, _, _, rfl⟩ | ⟨_, port, c, c', hc, hw, rfl⟩ | ⟨_, cp, dp, k, rfl⟩
    · exact h id b hb
    · rw [State.block?_setBlock] at hb
      split at hb
      · cases hb
        exact hw.clockOk (h port c hc).1 (h port c hc).2
      · exact h id b hb
    · rw [State.block?_construct] at hb
      split at hb
      · cases hb
        exact ⟨.of_invalid rfl rfl rfl rfl (by simp [Block.construct]), fun row hrow => by cases hrow⟩
      · exact h id b hb
  · rw [rowStep_block? hc hu] at hb
    split at hb
    · cases hb
      obtain ⟨hcfg, hcalc⟩ := h j c hc
      exact ⟨(rowBlock_moves s c pos).cfgOk hp hcfg hcalc, rowBlock_calcOk hp hcalc⟩
    · exact h id b hb
  · exact h id b hb
  · rw [(producerStep_engineOnly s e m).block?] at hb
    exact h id b hb

end Sys2Proof.Machine
end

section
/-! The events that set and clear a ready flag (R37, R46, R49, R63, R155). -/

namespace Sys2Proof.Machine

/-- The rows of the effects that few rows have: BEGIN's reset, the writes of `CLK` and `FMT`, the data reads. -/
def Effect.onlyAt (pos : Position) : Effect → Prop
  | .sync .swrst => pos = .begin .b5
  | .clk => pos = .configure .c11
  | .fmt => pos = .configure .c12
  | .clr => pos = .read .rd2 ∨ pos = .readBuf .q4
  | _ => True

theorem Block.effectAt_onlyAt (b : Block) (pos : Position) : (b.effectAt pos).onlyAt pos := by
  cases pos with
  | begin row => cases row <;> simp [Block.effectAt, Effect.onlyAt]
  | end_ row => cases row <;> simp [Block.effectAt, Effect.onlyAt]
  | configure row => cases row <;> simp [Block.effectAt, Effect.onlyAt]
  | read row => cases row <;> simp [Block.effectAt, Effect.onlyAt]
  | readBuf row => cases row <;> simp [Block.effectAt, Effect.onlyAt]
  | getSerIndex => trivial
  | illegal => trivial

theorem Block.effectAt_eq_onlyAt {b : Block} {pos : Position} {ef : Effect} (h : b.effectAt pos = ef) :
    ef.onlyAt pos := h ▸ b.effectAt_onlyAt pos

/-- B7, E2 and C3 are the rows that wait for the write of 0 to a serializer's enable. -/
theorem Block.pendingAt_seren_false {b : Block} {pos : Position} {m : UnitIx}
    (h : b.pendingAt pos = some (.seren m, false)) :
    b.m = m ∧ (pos = .begin .b7 ∨ pos = .end_ .e2 ∨ pos = .configure .c3) := by
  cases pos with
  | begin row => cases row <;> cases h; exact ⟨rfl, .inl rfl⟩
  | end_ row => cases row <;> cases h; exact ⟨rfl, .inr (.inl rfl)⟩
  | configure row => cases row <;> cases h; exact ⟨rfl, .inr (.inr rfl)⟩
  | read row => cases row <;> cases h
  | readBuf row => cases row <;> cases h
  | getSerIndex => cases h
  | illegal => cases h

/-- A row sets no ready flag, but for a timed-out engine reset (R46). -/
theorem Effect.holds.ready_set {s : State} {b : Block} {en : Engine} {ef : Effect} {m : UnitIx}
    (h : ef.holds s b en) (h0 : (s.engine b.e).rxrdy.get m = false) (h1 : en.rxrdy.get m = true) :
    ef = .sync .swrst ∧ s.answer.sync = .timeout := by
  cases ef with
  | none => cases h; rw [h0] at h1; cases h1
  | wr f v => cases h; exact absurd (h0.symm.trans h1) (by simp)
  | clk => rcases h with rfl | ⟨v, rfl⟩ <;> exact absurd (h0.symm.trans h1) (by simp)
  | fmt => obtain ⟨v, rfl⟩ := h; exact absurd (h0.symm.trans h1) (by simp)
  | clr =>
    cases h
    rw [Pair.get_set] at h1
    split at h1
    · cases h1
    · exact absurd (h0.symm.trans h1) (by simp)
  | sync f =>
    cases h
    cases hs : s.answer.sync with
    | ok =>
      rw [hs] at h1
      exact absurd (h0.symm.trans (Engine.rxrdy_syncOk_le _ _ f m h1)) (by simp)
    | timeout =>
      by_cases hf : f = .swrst
      · exact ⟨by rw [hf], rfl⟩
      · rw [hs, Engine.sync_timeout, Engine.syncTimeout_of_ne _ _ _ hf] at h1
        exact absurd (h0.symm.trans h1) (by simp)

/-- A row clears a ready flag by a data read, an engine reset, or an ok wait for a pending `SEREN[m] <- 0`
(R37, R46, R49, R63). -/
theorem Effect.holds.ready_cleared {s : State} {b : Block} {en : Engine} {ef : Effect} {m : UnitIx}
    (h : ef.holds s b en) (h1 : (s.engine b.e).rxrdy.get m = true) (h0 : en.rxrdy.get m = false) :
    (ef = .clr ∧ b.m = m) ∨ ef = .sync .swrst ∨
      ef = .sync (.seren m) ∧ s.answer.sync = .ok ∧ (s.engine b.e).pending.seren.get m = some false := by
  cases ef with
  | none => cases h; rw [h0] at h1; cases h1
  | wr f v => cases h; exact absurd (h0.symm.trans h1) (by simp)
  | clk => rcases h with rfl | ⟨v, rfl⟩ <;> exact absurd (h0.symm.trans h1) (by simp)
  | fmt => obtain ⟨v, rfl⟩ := h; exact absurd (h0.symm.trans h1) (by simp)
  | clr =>
    cases h
    rw [Pair.get_set] at h0
    split at h0
    · next hm => exact .inl ⟨rfl, hm.symm⟩
    · exact absurd (h0.symm.trans h1) (by simp)
  | sync f =>
    cases h
    right
    by_cases hf : f = .swrst
    · exact .inl (by rw [hf])
    · right
      cases hs : s.answer.sync with
      | timeout =>
        rw [hs, Engine.sync_timeout, Engine.syncTimeout_of_ne _ _ _ hf] at h0
        exact absurd (h0.symm.trans h1) (by simp)
      | ok =>
        rw [hs, Engine.sync_ok, Engine.syncOk_of_ne _ _ _ hf] at h0
        simp only [Engine.rxrdyAfterSync] at h0
        split at h0
        · next n =>
          split at h0
          · next hpend =>
            rw [Pair.get_set] at h0
            split at h0
            · next hm => subst hm; exact ⟨rfl, rfl, hpend⟩
            · exact absurd (h0.symm.trans h1) (by simp)
          · exact absurd (h0.symm.trans h1) (by simp)
        · exact absurd (h0.symm.trans h1) (by simp)

/-- A producer's step clears no ready flag, and sets that of its own active serializer alone (R155). -/
theorem producerStep_ready (s : State) (e : Nat) (m : UnitIx) (j : Nat) (n : UnitIx) :
    ((producerStep e m s).engine j).rxrdy.get n = (s.engine j).rxrdy.get n ∨
      (j = e ∧ n = m ∧ s.rxActive e m = true ∧ ((producerStep e m s).engine j).rxrdy.get n = true) := by
  unfold producerStep
  split
  · next hact =>
    by_cases hj : j = e
    · subst hj
      rw [State.engine_deliver_self]
      by_cases hn : n = m
      · exact .inr ⟨rfl, hn, hact.2, by rw [Pair.get_set, if_pos hn]⟩
      · exact .inl (by rw [Pair.get_set, if_neg hn])
    · rw [(s.deliver_engineOnly e m _).engine j hj]
      exact .inl rfl
  · exact .inl rfl

/-- Settles O58, by the effect of a row on its engine and by the producer's step; the host reaches no engine. -/
theorem readyFlagChangesOnlyByNamedEvents : Obligations.ReadyFlagChangesOnlyByNamedEvents := by
  refine ⟨fun s t e m ht h0 h1 => ?_, fun s t e m hsync ht h1 h0 => ?_⟩ <;>
    obtain ⟨u, rfl, hcases⟩ := step_cases ht
  · rw [State.engine_nextAnswer] at h1
    rcases hcases with ⟨-, hu⟩ | ⟨id, b, pos, hturn, hb, hp, hu⟩ | ⟨-, rfl⟩ | ⟨e', m', hturn, rfl⟩
    · rw [hostStep_engine hu, h0] at h1
      cases h1
    · obtain ⟨hen, hothers⟩ := rowStep_engine hb hu
      by_cases he : e = b.e
      · subst he
        obtain ⟨hef, hout⟩ := hen.ready_set h0 h1
        exact .inr ⟨id, b, hturn, hb, rfl, (show pos = _ from Block.effectAt_eq_onlyAt hef) ▸ hp, hout⟩
      · rw [hothers e he, h0] at h1
        cases h1
    · rw [h0] at h1
      cases h1
    · rcases producerStep_ready s e' m' e m with h | ⟨rfl, rfl, hact, -⟩
      · rw [h, h0] at h1
        cases h1
      · exact .inl ⟨hturn, hact⟩
  · rw [State.engine_nextAnswer] at h0
    rcases hcases with ⟨-, hu⟩ | ⟨id, b, pos, hturn, hb, hp, hu⟩ | ⟨-, rfl⟩ | ⟨e', m', hturn, rfl⟩
    · rw [hostStep_engine hu, h1] at h0
      cases h0
    · obtain ⟨hen, hothers⟩ := rowStep_engine hb hu
      by_cases he : e = b.e
      · subst he
        refine ⟨id, b, hturn, hb, rfl, ?_⟩
        rw [hp]
        rcases hen.ready_cleared h1 h0 with ⟨hef, hm⟩ | hef | ⟨hef, hout, hpend⟩
        · exact .inl ⟨hm, by simpa [Effect.onlyAt] using Block.effectAt_eq_onlyAt hef⟩
        · exact .inr (.inl (congrArg some (Block.effectAt_eq_onlyAt hef)))
        · obtain ⟨v, hfv⟩ := (b.effectAt_sync_iff pos _).mp hef
          have hv : (s.engine b.e).pending.get (.seren m) = some v := by
            rw [(hsync.1 id b pos _ v hb hp hfv).1, CtrlFields.get_set_self]
          obtain rfl : v = false := Option.some.inj (hv.symm.trans hpend)
          obtain ⟨hm, hrow⟩ := Block.pendingAt_seren_false hfv
          exact .inr (.inr ⟨hm, by simpa using hrow, hout, hpend⟩)
      · rw [hothers e he, h1] at h0
        cases h0
    · rw [h1] at h0
      cases h0
    · rcases producerStep_ready s e' m' e m with h | ⟨-, -, -, h⟩ <;> rw [h] at h0
      · rw [h1] at h0
        cases h0
      · cases h0

end Sys2Proof.Machine
end

section
/-! Frames (R51): what a row leaves alone outside its block and its engine, inside its engine, and inside its
block; and the frames of the six commands from them. -/

namespace Sys2Proof.Machine

/-! ## Outside the block and its engine -/

theorem State.sameMemory_refl (s : State) : s.sameMemory s := fun _ => rfl

theorem State.sameClocks_refl (s : State) : s.sameClocks s := ⟨fun _ => rfl, fun _ _ => rfl⟩

/-- A row stays within its block, its engine with its routes, the generators, host memory and the trace. -/
theorem Block.Takes.sameElsewhere {b : Block} {s u : State} {id : Nat} {st : Bool} {pos : Position}
    (h : b.Takes s u id st pos) : s.sameElsewhere u id b.e := by
  rcases h with ⟨rfl, -⟩ | ⟨b', rfl⟩
  · exact u.sameElsewhere_refl id b.e
  · refine (RowAction.apply_sameElsewhere b s id _ fun e c k hop => ?_).setBlock b'
    rcases Block.actionAt_callOp hop with ⟨_, _, h⟩ | ⟨_, h⟩ | ⟨row, -, h⟩
    · cases h
    · cases h
    · cases row with
      | c10 => cases h; rfl
      | c8 => obtain ⟨_, h⟩ := h; cases h
      | c9 => cases h
      | _ => exact h.elim

/-- Only Q5 writes host memory. -/
theorem Block.Takes.sameMemory {b : Block} {s u : State} {id : Nat} {st : Bool} {pos : Position}
    (h : b.Takes s u id st pos) (hpos : pos ≠ .readBuf .q5) : s.sameMemory u := by
  rcases h with ⟨rfl, -⟩ | ⟨b', rfl⟩
  · exact u.sameMemory_refl
  · exact RowAction.apply_readByte b s fun ha => hpos (Block.actionAt_eq_store ha)

/-- A row that calls leaves the clocks that its call leaves; any other row leaves them all. -/
theorem Block.Takes.clocks {b : Block} {s u : State} {id : Nat} {st : Bool} {pos : Position}
    (h : b.Takes s u id st pos) :
    s.sameClocks u ∨ ∃ op, (b.actionAt s id st pos).callOp = some op ∧
      (∀ k, u.gen k = (s.afterCall op).gen k) ∧ ∀ e c, u.route e c = (s.afterCall op).route e c := by
  rcases h with ⟨rfl, -⟩ | ⟨b', rfl⟩
  · exact .inl u.sameClocks_refl
  · cases hop : (b.actionAt s id st pos).callOp with
    | none => exact .inl (RowAction.apply_sameClocks b s hop)
    | some op => exact .inr ⟨op, rfl, RowAction.apply_clocks_of_call b s hop⟩

theorem State.sameClocks_of_pin_call {s u : State} {op : CallOp}
    (hop : (∃ pin role, op = .pinMux pin role) ∨ ∃ pin, op = .pinRelease pin)
    (hg : ∀ k, u.gen k = (s.afterCall op).gen k) (hr : ∀ e c, u.route e c = (s.afterCall op).route e c) :
    s.sameClocks u := by
  refine ⟨fun k => (hg k).trans (s.afterCall_gen op k ?_ ?_),
    fun e c => (hr e c).trans (s.afterCall_route op e c ?_)⟩ <;>
    rcases hop with ⟨_, _, rfl⟩ | ⟨_, rfl⟩ <;> simp

/-- Outside CONFIGURE a row changes no generator and no route. -/
theorem Block.Takes.sameClocks {b : Block} {s u : State} {id : Nat} {st : Bool} {pos : Position}
    (h : b.Takes s u id st pos) (hpos : ∀ row, pos ≠ .configure row) : s.sameClocks u := by
  rcases h.clocks with hsame | ⟨op, hop, hg, hr⟩
  · exact hsame
  · rcases Block.actionAt_callOp hop with hp | hp | ⟨row, rfl, -⟩
    · exact State.sameClocks_of_pin_call (.inl hp) hg hr
    · exact State.sameClocks_of_pin_call (.inr hp) hg hr
    · exact absurd rfl (hpos row)

/-- What CONFIGURE's row leaves of the generators and routes: only its own, and each at its row alone
(R127, R178). -/
structure Block.ClockFrame (b : Block) (s u : State) (row : ConfigureRow) : Prop where
  gen_other : ∀ k, k ≠ b.k.toNat → u.gen k = s.gen k
  gen_own : row ≠ .c8 → row ≠ .c9 → u.gen b.k.toNat = s.gen b.k.toNat
  gen_enable : row = .c9 → u.gen b.k.toNat = { s.gen b.k.toNat with genEn := (u.gen b.k.toNat).genEn }
  route_other : ∀ c, c ≠ b.c → u.route b.e c = s.route b.e c
  route_own : row ≠ .c10 → u.route b.e b.c = s.route b.e b.c

theorem Block.ClockFrame.of_sameClocks {b : Block} {s u : State} {row : ConfigureRow} (h : s.sameClocks u) :
    b.ClockFrame s u row :=
  ⟨fun k _ => h.1 k, fun _ _ => h.1 _, fun _ => by rw [h.1], fun c _ => h.2 _ c, fun _ => h.2 _ _⟩

theorem Block.Takes.clockFrame {b : Block} {s u : State} {id : Nat} {st : Bool} {row : ConfigureRow}
    (h : b.Takes s u id st (.configure row)) : b.ClockFrame s u row := by
  rcases h.clocks with hsame | ⟨op, hop, hg, hr⟩
  · exact .of_sameClocks hsame
  · rcases Block.actionAt_callOp hop with hp | hp | ⟨row', hrow, hcall⟩
    · exact .of_sameClocks (State.sameClocks_of_pin_call (.inl hp) hg hr)
    · exact .of_sameClocks (State.sameClocks_of_pin_call (.inr hp) hg hr)
    · cases hrow
      cases row with
      | c8 =>
        obtain ⟨g, rfl⟩ := hcall
        have hroute : ∀ c, u.route b.e c = s.route b.e c := fun c =>
          (hr b.e c).trans (s.afterCall_route _ b.e c (by simp))
        exact ⟨fun k hk => (hg k).trans (s.afterCall_gen _ k (by simp [Ne.symm hk]) (by simp)),
          fun h => absurd rfl h, nofun, fun c _ => hroute c, fun _ => hroute b.c⟩
      | c9 =>
        cases hcall
        have hroute : ∀ c, u.route b.e c = s.route b.e c := fun c =>
          (hr b.e c).trans (s.afterCall_route _ b.e c (by simp))
        exact ⟨fun k hk => (hg k).trans (s.afterCall_gen _ k (by simp) (by simp [Ne.symm hk])),
          fun _ h => absurd rfl h, fun _ => by rw [hg]; exact s.afterCall_genEnable b.k.toNat,
          fun c _ => hroute c, fun _ => hroute b.c⟩
      | c10 =>
        cases hcall
        have hgen : ∀ k, u.gen k = s.gen k := fun k =>
          (hg k).trans (s.afterCall_gen _ k (by simp) (by simp))
        exact ⟨fun k _ => hgen k, fun _ _ => hgen _, nofun,
          fun c hc => (hr b.e c).trans (s.afterCall_route _ b.e c (by simp [Ne.symm hc])),
          fun h => absurd rfl h⟩
      | _ => exact hcall.elim

/-! ## Inside the engine -/

/-- Without an engine reset an effect keeps the words, `CLK` and `FMT` but where it writes them, and sets no ready
flag. -/
theorem Effect.holds.registers {s : State} {b : Block} {en : Engine} {ef : Effect} (h : ef.holds s b en)
    (hs : ef ≠ .sync .swrst) :
    en.data = (s.engine b.e).data ∧ (ef ≠ .clk → en.clk = (s.engine b.e).clk) ∧
      (ef ≠ .fmt → en.fmt = (s.engine b.e).fmt) ∧
      ∀ m, en.rxrdy.get m = true → (s.engine b.e).rxrdy.get m = true := by
  have hready : ∀ m, en.rxrdy.get m = true → (s.engine b.e).rxrdy.get m = true := fun m h1 => by
    by_contra h0
    exact hs (h.ready_set (by simpa using h0) h1).1
  suffices hrest : en.data = (s.engine b.e).data ∧ (ef ≠ .clk → en.clk = (s.engine b.e).clk) ∧
      (ef ≠ .fmt → en.fmt = (s.engine b.e).fmt) from
    have ⟨hdata, hclk, hfmt⟩ := hrest
    ⟨hdata, hclk, hfmt, hready⟩
  cases ef with
  | none => cases h; exact ⟨rfl, fun _ => rfl, fun _ => rfl⟩
  | wr f v => cases h; exact ⟨rfl, fun _ => rfl, fun _ => rfl⟩
  | sync f =>
    cases h
    obtain ⟨⟨hd, hc, hf, -⟩, -, -⟩ :=
      (s.engine b.e).sync_frame (f := f) s.answer.engine s.answer.sync fun hf => hs (by rw [hf])
    exact ⟨hd, fun _ => hc, fun _ => hf⟩
  | clk =>
    refine ⟨?_, fun hn => absurd rfl hn, fun _ => ?_⟩ <;> rcases h with rfl | ⟨v, rfl⟩ <;> rfl
  | fmt =>
    obtain ⟨v, rfl⟩ := h
    exact ⟨rfl, fun _ => rfl, fun hn => absurd rfl hn⟩
  | clr => cases h; exact ⟨rfl, fun _ => rfl, fun _ => rfl⟩

theorem Effect.holds.sameFormats {s : State} {b : Block} {en : Engine} {ef : Effect} (h : ef.holds s b en)
    (hs : ef ≠ .sync .swrst) (hc : ef ≠ .clk) (hf : ef ≠ .fmt) : (s.engine b.e).sameFormats en :=
  have ⟨hdata, hclk, hfmt, hready⟩ := h.registers hs
  ⟨hdata, hclk hc, hfmt hf, hready⟩

/-- The `CTRL` field that an effect writes or waits for. -/
def Effect.field : Effect → Option CtrlField
  | .wr f _ | .sync f => some f
  | _ => Option.none

/-- The fields of the block's own units, and `ENABLE`. -/
def Block.ownField (b : Block) (f : CtrlField) : Prop := f = .enable ∨ f = .cken b.c ∨ f = .seren b.m

/-- A row writes, and waits for, fields of its own units alone, but for BEGIN's reset (R51). -/
theorem Block.effectAt_field {b : Block} {pos : Position} {f : CtrlField}
    (h : (b.effectAt pos).field = some f) :
    b.ownField f ∨ f = .swrst ∧ (pos = .begin .b4 ∨ pos = .begin .b5) := by
  cases pos with
  | begin row => cases row <;> cases h <;> simp [Block.ownField]
  | end_ row => cases row <;> cases h <;> simp [Block.ownField]
  | configure row => cases row <;> cases h <;> simp [Block.ownField]
  | read row => cases row <;> cases h
  | readBuf row => cases row <;> cases h
  | getSerIndex => cases h
  | illegal => cases h

/-- BEGIN does not touch `ENABLE`. -/
theorem Block.effectAt_begin_field (b : Block) (row : BeginRow) :
    (b.effectAt (.begin row)).field ≠ some .enable := by
  cases row <;> simp [Block.effectAt, Effect.field]

/-- An effect on the block's own units leaves the engine's other units alone (R51). -/
theorem Effect.holds.sameOtherUnits {s : State} {b : Block} {en : Engine} {ef : Effect} (h : ef.holds s b en)
    (hf : ∀ f, ef.field = some f → b.ownField f) : (s.engine b.e).sameOtherUnits en b.c b.m := by
  cases ef with
  | none => cases h; exact Engine.sameOtherUnits_refl _ _ _
  | wr f v => cases h; exact Engine.wrCtrl_sameOtherUnits _ v (hf f rfl)
  | sync f => cases h; exact Engine.sync_sameOtherUnits _ _ _ (hf f rfl)
  | clk =>
    rcases h with rfl | ⟨v, rfl⟩
    · exact Engine.sameOtherUnits_refl _ _ _
    · exact ⟨rfl, rfl, fun c' hc => ⟨rfl, rfl, by simp [Pair.get_set, hc]⟩,
        fun _ _ => ⟨rfl, rfl, rfl, rfl, rfl⟩⟩
  | fmt =>
    obtain ⟨v, rfl⟩ := h
    exact ⟨rfl, rfl, fun _ _ => ⟨rfl, rfl, rfl⟩,
      fun m' hm => ⟨rfl, rfl, by simp [Pair.get_set, hm], rfl, rfl⟩⟩
  | clr =>
    cases h
    exact ⟨rfl, rfl, fun _ _ => ⟨rfl, rfl, rfl⟩,
      fun m' hm => ⟨rfl, rfl, rfl, by simp [Pair.get_set, hm], rfl⟩⟩

/-- An effect on another field than `ENABLE`, and no engine reset, leaves `ENABLE` and its busy bit. -/
theorem Effect.holds.enable {s : State} {b : Block} {en : Engine} {ef : Effect} (h : ef.holds s b en)
    (hs : ef ≠ .sync .swrst) (hf : ef.field ≠ some .enable) :
    en.ctrl.enable = (s.engine b.e).ctrl.enable ∧ en.syncbusy.enable = (s.engine b.e).syncbusy.enable := by
  cases ef with
  | wr f v =>
    cases h
    have hne : CtrlField.enable ≠ f := fun he => hf (by rw [he]; rfl)
    exact ⟨rfl, (CtrlFields.get_set (s.engine b.e).syncbusy f .enable true).trans (if_neg hne)⟩
  | sync f =>
    cases h
    exact ((s.engine b.e).sync_frame s.answer.engine s.answer.sync fun he => hs (by rw [he])).2.2 .enable
      fun he => hf (by rw [he]; rfl)
  | none | clk | fmt | clr =>
    have hsame := h.sameControl (by simp) (by simp)
    exact ⟨by rw [hsame.ctrl], by rw [hsame.syncbusy]⟩

/-- A row that does not need the engine changes at most the ready flag of its own serializer (R63). -/
theorem Effect.holds.ready_only {s : State} {b : Block} {en : Engine} {ef : Effect} (h : ef.holds s b en)
    (hw : ef.writes = false) :
    en = { s.engine b.e with rxrdy := en.rxrdy } ∧
      ∀ m, m ≠ b.m → en.rxrdy.get m = (s.engine b.e).rxrdy.get m := by
  cases ef with
  | none => cases h; exact ⟨rfl, fun _ _ => rfl⟩
  | clr => cases h; exact ⟨rfl, fun m hm => by simp [Pair.get_set, hm]⟩
  | _ => cases hw

/-! ## Inside the block -/

theorem Block.sameInputs_refl (b : Block) : b.sameInputs b :=
  ⟨rfl, rfl, rfl, rfl, rfl, rfl, rfl, rfl, rfl, rfl, rfl⟩

/-- The lifecycle, the channel mode and ClockConfig are as before. -/
structure Block.SameRecord (b b' : Block) : Prop where
  lifecycle : b'.lifecycle = b.lifecycle
  chMode : b'.chMode = b.chMode
  cfgValid : b'.cfgValid = b.cfgValid
  cfgG : b'.cfgG = b.cfgG
  cfgS : b'.cfgS = b.cfgS
  cfgF : b'.cfgF = b.cfgF

/-- The rows that commit or can fail for good are those that write the block's record. -/
theorem Block.Moves.sameRecord {p : Params} {b b' : Block} {pos : Position} (h : b.Moves p pos b')
    (hf : pos.mayFail = false) (hb : pos ≠ .begin .b10) (he : pos ≠ .end_ .e9)
    (hc : pos ≠ .configure .c19) : b.SameRecord b' := by
  cases h with
  | hold _ => exact ⟨rfl, rfl, rfl, rfl, rfl, rfl⟩
  | goto _ _ _ _ => exact ⟨rfl, rfl, rfl, rfl, rfl, rfl⟩
  | finish _ _ _ _ => exact ⟨rfl, rfl, rfl, rfl, rfl, rfl⟩
  | fatal h => rw [hf] at h; cases h
  | commitBegin h => exact absurd h hb
  | commitEnd h => exact absurd h he
  | commitConfigure _ _ _ h _ => exact absurd h hc

/-- Only CONFIGURE's commit writes the channel mode. -/
theorem Block.Moves.chMode {p : Params} {b b' : Block} {pos : Position} (h : b.Moves p pos b')
    (hc : pos ≠ .configure .c19) : b'.chMode = b.chMode := by
  cases h with
  | commitConfigure _ _ _ h _ => exact absurd h hc
  | _ => rfl

/-- BEGIN's rows write no working register and not `RES_WORD`. -/
theorem rowBlock_begin_rest (s : State) (b : Block) (row : BeginRow) :
    (rowBlock s b (.begin row)).work = b.work ∧ (rowBlock s b (.begin row)).resWord = b.resWord := by
  cases row <;> simp only [rowBlock]
  case b0 | b1 => split <;> exact ⟨rfl, rfl⟩
  case b2 | b3 => cases s.answer.call <;> exact ⟨rfl, rfl⟩
  case b5 | b7 | b9 => cases s.answer.sync <;> exact ⟨rfl, rfl⟩
  all_goals exact ⟨rfl, rfl⟩

/-- END's rows write the working register `err` alone, and not `RES_WORD`. -/
theorem rowBlock_end_rest (s : State) (b : Block) (row : EndRow) :
    (rowBlock s b (.end_ row)).work = { b.work with err := (rowBlock s b (.end_ row)).work.err } ∧
      (rowBlock s b (.end_ row)).resWord = b.resWord := by
  cases row <;> simp only [rowBlock]
  case e0 => split <;> exact ⟨rfl, rfl⟩
  case e2 | e4 | e6 => cases s.answer.sync <;> exact ⟨rfl, rfl⟩
  all_goals exact ⟨rfl, rfl⟩

/-- CONFIGURE's rows write the working registers `r` and `rate` alone, and not `RES_WORD`. -/
theorem rowBlock_configure_rest (s : State) (b : Block) (row : ConfigureRow) :
    (rowBlock s b (.configure row)).work =
        { b.work with r := (rowBlock s b (.configure row)).work.r,
                      rate := (rowBlock s b (.configure row)).work.rate } ∧
      (rowBlock s b (.configure row)).resWord = b.resWord := by
  cases row <;> simp only [rowBlock]
  case c0 | c1 | c9 | c10 | c11 | c19 => split <;> exact ⟨rfl, rfl⟩
  case c8 => split <;> [split; skip] <;> exact ⟨rfl, rfl⟩
  case c3 | c5 | c7 | c14 | c16 | c18 => cases s.answer.sync <;> exact ⟨rfl, rfl⟩
  all_goals exact ⟨rfl, rfl⟩

/-- READ's rows write the working register `w` alone. -/
theorem rowBlock_read_work (s : State) (b : Block) (row : ReadRow) :
    (rowBlock s b (.read row)).work = { b.work with w := (rowBlock s b (.read row)).work.w } := by
  cases row <;> simp only [rowBlock]
  case rd2 => rfl
  all_goals split <;> rfl

/-- READ_BUF's rows do not write `RES_WORD`. -/
theorem rowBlock_readBuf_resWord (s : State) (b : Block) (row : ReadBufRow) :
    (rowBlock s b (.readBuf row)).resWord = b.resWord := by
  cases row <;> simp only [rowBlock]
  case q2 | q4 => rfl
  all_goals split <;> rfl

/-! ## The commands -/

/-- `exec` of a command other than CONFIGURE runs the row at the block's position if that is the command's, and
else does nothing (log entry 12). -/
theorem exec_cases {s t : State} {id : Nat} {b : Block} {i : Instr} (hturn : s.turn = .sequencer id)
    (hb : s.block? id = some b) (hi : ∀ st, i ≠ .configure st) (h : exec i s = .next t) :
    (t = s ∧ ∀ pos, b.seq = some pos → pos.instr b.work.st ≠ some i) ∨
      ∃ pos, b.seq = some pos ∧ pos.instr b.work.st = some i ∧ rowStep pos id b s = .next t := by
  by_cases hrow : ∃ pos, b.seq = some pos ∧ pos.instr b.work.st = some i
  · obtain ⟨pos, hp, hpi⟩ := hrow
    exact .inr ⟨pos, hp, hpi, (exec_row ⟨hturn, hb, hp⟩ hpi).symm.trans h⟩
  · have hno : ∀ pos, b.seq = some pos → pos.instr b.work.st ≠ some i := fun pos hp hpi =>
      hrow ⟨pos, hp, hpi⟩
    refine .inl ⟨?_, hno⟩
    have hself : s.self = some (id, b) := (s.self_eq_some id b).mpr ⟨hturn, hb⟩
    cases i with
    | configure st => exact absurd rfl (hi st)
    | _ =>
      simp only [exec, execBegin, execEnd, execRead, execReadBuf, execGetSerIndex, hself] at h
      split at h
      · next hp => exact absurd rfl (hno _ hp)
      · cases h; rfl

theorem execConfigure_cases {s t : State} {id : Nat} {b : Block} {st : Bool} (hturn : s.turn = .sequencer id)
    (hb : s.block? id = some b) (h : exec (.configure st) s = .next t) :
    (t = s ∧ ∀ row, b.seq ≠ some (.configure row)) ∨
      ∃ row, b.seq = some (.configure row) ∧ configureRow st row id b s = .next t := by
  have hself : s.self = some (id, b) := (s.self_eq_some id b).mpr ⟨hturn, hb⟩
  simp only [exec, execConfigure, hself] at h
  split at h
  · next row hp => exact .inr ⟨row, hp, h⟩
  · next hno => cases h; exact .inl ⟨rfl, hno⟩

theorem Position.instr_read {st : Bool} {pos : Position} (h : pos.instr st = some .read) :
    ∃ row, pos = .read row := by
  cases pos <;> cases h
  exact ⟨_, rfl⟩

theorem Position.instr_readBuf {st : Bool} {pos : Position} (h : pos.instr st = some .readBuf) :
    ∃ row, pos = .readBuf row := by
  cases pos <;> cases h
  exact ⟨_, rfl⟩

/-- A poll row, a data read or a check needs no engine. -/
theorem Block.writes_read (b : Block) (row : ReadRow) : (b.effectAt (.read row)).writes = false := by
  cases row <;> rfl

theorem Block.writes_readBuf (b : Block) (row : ReadBufRow) :
    (b.effectAt (.readBuf row)).writes = false := by
  cases row <;> rfl

/-- Settles O40: nothing at all where the sequencer is at no row of READ, and else the frames of its rows. -/
theorem readFrame : Obligations.ReadFrame := by
  intro s t id b hturn hb h
  rcases exec_cases hturn hb (by simp) h with ⟨rfl, -⟩ | ⟨pos, hp, hpi, hrow⟩
  · exact ⟨b, hb, b.sameInputs_refl, rfl, rfl, rfl, rfl, rfl, rfl, rfl,
      fun _ => rfl, rfl, fun _ _ => rfl, rfl, t.sameElsewhere_refl id b.e, t.sameMemory_refl,
      t.sameClocks_refl⟩
  · obtain ⟨row, rfl⟩ := Position.instr_read hpi
    have htakes := rowStep_takes hrow
    have hmoves := rowBlock_moves s b (.read row)
    have hrec := hmoves.sameRecord rfl (by simp) (by simp) (by simp)
    obtain ⟨hready, hother⟩ := (rowStep_engine hb hrow).1.ready_only (b.writes_read row)
    refine ⟨_, (rowStep_block? hb hrow id).trans (if_pos rfl), hmoves.sameInputs, hrec.lifecycle,
      hrec.chMode, hrec.cfgValid, hrec.cfgG, hrec.cfgS, hrec.cfgF, rowBlock_read_work s b row,
      fun hn => ?_, hready, hother, ?_,
      htakes.sameElsewhere, htakes.sameMemory (by simp), htakes.sameClocks (by simp)⟩
    · refine rowStep_engine_of_none hb hrow ?_
      cases row with
      | rd2 => exact absurd hp hn
      | _ => rfl
    · exact (htakes.owner b.e).trans (if_pos rfl)

/-- Q5's store writes the four bytes at the block's store address alone. -/
theorem rowStep_q5_readByte {s u : State} {id : Nat} {b : Block}
    (h : rowStep (.readBuf .q5) id b s = .next u) {a : Nat} (ha : a < b.storeAddr ∨ b.storeAddr + 4 ≤ a) :
    u.readByte a = s.readByte a := by
  rcases rowStep_takes h with ⟨rfl, -⟩ | ⟨b', rfl⟩
  · rfl
  · exact (s.readByte_memWrite b.storeAddr b.work.w a).trans (if_neg (by omega))

/-- Settles O41, as READ's frame; the store of Q5 is the one row that reaches host memory. -/
theorem readBufFrame : Obligations.ReadBufFrame := by
  intro s t id b hturn hb h
  rcases exec_cases hturn hb (by simp) h with ⟨rfl, -⟩ | ⟨pos, hp, hpi, hrow⟩
  · exact ⟨b, hb, b.sameInputs_refl, rfl, rfl, rfl, rfl, rfl, rfl, rfl,
      fun _ => rfl, rfl, fun _ _ => rfl, rfl, t.sameElsewhere_refl id b.e, t.sameClocks_refl,
      fun _ => t.sameMemory_refl, fun _ _ _ => rfl⟩
  · obtain ⟨row, rfl⟩ := Position.instr_readBuf hpi
    have htakes := rowStep_takes hrow
    have hmoves := rowBlock_moves s b (.readBuf row)
    have hrec := hmoves.sameRecord rfl (by simp) (by simp) (by simp)
    obtain ⟨hready, hother⟩ := (rowStep_engine hb hrow).1.ready_only (b.writes_readBuf row)
    refine ⟨_, (rowStep_block? hb hrow id).trans (if_pos rfl), hmoves.sameInputs,
      rowBlock_readBuf_resWord s b row, hrec.lifecycle, hrec.chMode, hrec.cfgValid, hrec.cfgG, hrec.cfgS,
      hrec.cfgF, fun hn => ?_, hready, hother,
      ?_, htakes.sameElsewhere, htakes.sameClocks (by simp), fun hn => ?_, fun hq a ha => ?_⟩
    · refine rowStep_engine_of_none hb hrow ?_
      cases row with
      | q4 => exact absurd hp hn
      | _ => rfl
    · exact (htakes.owner b.e).trans (if_pos rfl)
    · exact htakes.sameMemory fun hq => hn (hq ▸ hp)
    · rw [hp] at hq
      cases hq
      exact rowStep_q5_readByte hrow ha

/-- Outside C12 and C19 a row of CONFIGURE does not use the stereo flag. -/
theorem configureRow_eq_rowStep {s : State} {id : Nat} {b : Block} {row : ConfigureRow} (st : Bool)
    (h12 : row ≠ .c12) (h19 : row ≠ .c19) :
    configureRow st row id b s = rowStep (.configure row) id b s := by
  cases row <;> first | rfl | exact absurd rfl h12 | exact absurd rfl h19

/-- What a row of CONFIGURE leaves of its block, and its effect on the engine, whatever the stereo flag. -/
theorem configureRow_view {s u : State} {id : Nat} {b : Block} {row : ConfigureRow} {st : Bool}
    (hb : s.block? id = some b) (h : configureRow st row id b s = .next u) :
    (∃ b', u.block? id = some b' ∧ b.sameInputs b' ∧ b'.resWord = b.resWord ∧
      b'.work = { b.work with r := b'.work.r, rate := b'.work.rate }) ∧
      (b.effectAt (.configure row)).holds s b (u.engine b.e) := by
  by_cases h12 : row = .c12
  · subst h12
    simp only [configureRow, fmtRow] at h
    split at h <;> cases h
    refine ⟨⟨_, State.block?_setBlock_self _ _ _, b.sameInputs_refl,
      rfl, rfl⟩, frameFormat s.params st b.c, ?_⟩
    simp [State.wrFmt]
  by_cases h19 : row = .c19
  · subst h19
    simp only [configureRow] at h
    split at h <;> cases h
    · exact ⟨⟨_, State.block?_setBlock_self _ _ _, b.sameInputs_refl,
        rfl, rfl⟩, rfl⟩
    · exact ⟨⟨b, hb, b.sameInputs_refl, rfl, rfl⟩, rfl⟩
  · rw [configureRow_eq_rowStep st h12 h19] at h
    obtain ⟨hwork, hres⟩ := rowBlock_configure_rest s b row
    exact ⟨⟨_, (rowStep_block? hb h id).trans (if_pos rfl), (rowBlock_moves s b (.configure row)).sameInputs,
      hres, hwork⟩, (rowStep_engine hb h).1⟩

/-- The engine of a block is as it was after C0, C1, the calls C8 to C10, and C19. -/
theorem Block.effectAt_configure_none (b : Block) :
    ∀ pos ∈ [Position.configure .c0, .configure .c1, .configure .c8, .configure .c9, .configure .c10,
      .configure .c19], b.effectAt pos = .none := by
  simp [Block.effectAt]

/-- Settles O39: nothing at all where the sequencer is at no row of CONFIGURE, and else the frames of its rows. -/
theorem configureFrame : Obligations.ConfigureFrame := by
  intro s t id b st hturn hb h
  rcases execConfigure_cases hturn hb h with ⟨rfl, -⟩ | ⟨row, hp, hrow⟩
  · exact ⟨b, hb, b.sameInputs_refl, rfl, rfl, rfl, le_refl _, le_refl _,
      rfl, Engine.sameOtherUnits_refl _ _ _, fun _ => rfl, fun _ => rfl, fun _ _ _ => rfl, fun _ _ => rfl,
      fun _ _ => rfl, fun _ => rfl, fun _ _ => rfl, fun _ => rfl, t.sameElsewhere_refl id b.e,
      t.sameMemory_refl⟩
  · obtain ⟨⟨b', hb', hinputs, hres, hwork⟩, hen⟩ := configureRow_view hb hrow
    have htakes := configureRow_takes hrow
    have hclocks := htakes.clockFrame
    have hreset : b.effectAt (.configure row) ≠ .sync .swrst := fun hef => by
      cases Block.effectAt_eq_onlyAt hef
    obtain ⟨hdata, hclk, hfmt, hready⟩ := hen.registers hreset
    have hunits := hen.sameOtherUnits fun f hf =>
      (Block.effectAt_field hf).resolve_right fun h => by simp at h
    refine ⟨b', hb', hinputs, hres, hwork, (htakes.owner b.e).trans (if_pos rfl),
      Bool.le_iff_imp.mpr (hready .u0), Bool.le_iff_imp.mpr (hready .u1), hdata, hunits,
      fun hn => hclk fun hef => ?_, fun hn => hfmt fun hef => ?_, fun pos hmem hpos => ?_,
      hclocks.gen_other, fun h8 h9 => ?_, fun h9 => ?_, hclocks.route_other, fun h10 => ?_,
      htakes.sameElsewhere, htakes.sameMemory (by simp)⟩
    · exact hn (hp.trans (congrArg some (Block.effectAt_eq_onlyAt hef)))
    · exact hn (hp.trans (congrArg some (Block.effectAt_eq_onlyAt hef)))
    · have hnone := b.effectAt_configure_none pos hmem
      rw [hp] at hpos
      cases hpos
      rw [hnone] at hen
      exact hen
    · exact hclocks.gen_own (fun h => h8 (h ▸ hp)) (fun h => h9 (h ▸ hp))
    · rw [hp] at h9
      cases h9
      exact hclocks.gen_enable rfl
    · exact hclocks.route_own fun h => h10 (h ▸ hp)

/-- The rows of BEGIN and END that write no engine register and wait for none. -/
theorem Block.effectAt_lifecycle_none (b : Block) :
    ∀ pos ∈ [Position.begin .b0, .begin .b1, .begin .b2, .begin .b3, .begin .b3f, .begin .b10,
      .end_ .e0, .end_ .e7, .end_ .e8, .end_ .e9], b.effectAt pos = .none := by
  simp [Block.effectAt]

/-- The engine's frame at a row of BEGIN other than its reset's wait (R110). -/
theorem beginRow_engine_frame {s : State} {b : Block} {row : BeginRow} {en : Engine}
    (hen : (b.effectAt (.begin row)).holds s b en) (h5 : row ≠ .b5) :
    (s.engine b.e).sameFormats en ∧ en.ctrl.enable = (s.engine b.e).ctrl.enable ∧
      en.syncbusy.enable = (s.engine b.e).syncbusy.enable ∧
      (row = .b4 → en = (s.engine b.e).wrCtrl .swrst true) ∧
      (row ≠ .b4 → (s.engine b.e).sameOtherUnits en b.c b.m) := by
  have hreset : b.effectAt (.begin row) ≠ .sync .swrst := fun hef =>
    h5 (by cases Block.effectAt_eq_onlyAt hef; rfl)
  obtain ⟨hctrl, hbusy⟩ := hen.enable hreset (b.effectAt_begin_field row)
  refine ⟨hen.sameFormats hreset (fun h => by cases Block.effectAt_eq_onlyAt h)
    (fun h => by cases Block.effectAt_eq_onlyAt h), hctrl, hbusy, ?_,
    fun h4 => hen.sameOtherUnits fun f hf => ?_⟩
  · rintro rfl
    exact hen
  · exact (Block.effectAt_field hf).resolve_right fun h => by simp [h4, h5] at h

theorem endRow_engine_frame {s : State} {b : Block} {row : EndRow} {en : Engine}
    (hen : (b.effectAt (.end_ row)).holds s b en) :
    (s.engine b.e).sameFormats en ∧ (s.engine b.e).sameOtherUnits en b.c b.m :=
  ⟨hen.sameFormats (fun h => by cases Block.effectAt_eq_onlyAt h) (fun h => by cases Block.effectAt_eq_onlyAt h)
    (fun h => by cases Block.effectAt_eq_onlyAt h),
   hen.sameOtherUnits fun _ hf => (Block.effectAt_field hf).resolve_right fun h => by simp at h⟩

/-- Settles O38: nothing at all where the sequencer is at no row of the command, and else the frames of BEGIN's and
END's rows and of the one row of GET_SER_INDEX. -/
theorem lifecycleCommandsFrame : Obligations.LifecycleCommandsFrame := by
  intro s t id b i hturn hb hi h
  have hconf : ∀ st, i ≠ .configure st := by rcases hi with rfl | rfl | rfl <;> simp
  rcases exec_cases hturn hb hconf h with ⟨rfl, hno⟩ | ⟨pos, hp, hpi, hrow⟩
  · refine ⟨b, hb, b.sameInputs_refl, rfl, rfl, fun _ => rfl, fun _ => rfl,
      fun _ => ⟨rfl, rfl, rfl, rfl, rfl, rfl, rfl, rfl⟩, fun _ _ _ => rfl,
      fun _ => ⟨Engine.sameFormats_refl _, Engine.sameOtherUnits_refl _ _ _⟩, fun hbegin _ => ?_,
      t.sameElsewhere_refl id b.e, t.sameMemory_refl, t.sameClocks_refl⟩
    subst hbegin
    exact ⟨Engine.sameFormats_refl _, rfl, rfl, fun h4 => absurd rfl (hno _ h4),
      fun _ => Engine.sameOtherUnits_refl _ _ _⟩
  · obtain ⟨hen, -⟩ := rowStep_engine hb hrow
    have hblock := (rowStep_block? hb hrow id).trans (if_pos rfl)
    have htakes := rowStep_takes hrow
    have hmoves := rowBlock_moves s b pos
    have hnone : ∀ pos' ∈ [Position.begin .b0, .begin .b1, .begin .b2, .begin .b3, .begin .b3f, .begin .b10,
        .end_ .e0, .end_ .e7, .end_ .e8, .end_ .e9], b.seq = some pos' → t.engine b.e = s.engine b.e := by
      intro pos' hmem hp'
      rw [hp] at hp'
      cases hp'
      exact rowStep_engine_of_none hb hrow (b.effectAt_lifecycle_none pos hmem)
    cases pos with
    | begin row =>
      cases hpi
      obtain ⟨hwork, hres⟩ := rowBlock_begin_rest s b row
      refine ⟨_, hblock, hmoves.sameInputs, hmoves.chMode (by simp), by rw [hwork],
        fun _ => hwork, fun _ => hres, by simp, hnone, by simp, fun _ h5 => ?_, htakes.sameElsewhere,
        htakes.sameMemory (by simp), htakes.sameClocks (by simp)⟩
      obtain ⟨hfmts, hctrl, hbusy, h4, hunits⟩ := beginRow_engine_frame hen fun h => h5 (h ▸ hp)
      refine ⟨hfmts, hctrl, hbusy, fun h => h4 ?_, fun h => hunits fun hr => h (hr ▸ hp)⟩
      rw [hp] at h
      cases h
      rfl
    | end_ row =>
      cases hpi
      obtain ⟨hwork, hres⟩ := rowBlock_end_rest s b row
      exact ⟨_, hblock, hmoves.sameInputs, hmoves.chMode (by simp), hwork,
        fun hn => absurd rfl hn, fun _ => hres, by simp, hnone, fun _ => endRow_engine_frame hen, by simp,
        htakes.sameElsewhere, htakes.sameMemory (by simp), htakes.sameClocks (by simp)⟩
    | getSerIndex =>
      cases hpi
      cases hrow
      exact ⟨_, State.block?_setBlock_self _ _ _, b.sameInputs_refl, rfl,
        rfl, fun _ => rfl, fun hn => absurd rfl hn, fun _ => ⟨rfl, rfl, rfl, rfl, rfl, rfl, rfl, rfl⟩, hnone,
        by simp, by simp, htakes.sameElsewhere, htakes.sameMemory (by simp), htakes.sameClocks (by simp)⟩
    | _ => rcases hi with rfl | rfl | rfl <;> cases hpi

end Sys2Proof.Machine
end

section
/-! A step as the decoded command's row (R29, R79), the fields of `STATUS` (R27), the port's ARG and read-only
registers (R25 to R28), and READ_BUF's rows of one word (R149). -/

namespace Sys2Proof.Machine

/-! ## A step runs the decoded command -/

/-- At a row of one of the six commands, the sequencer's step is `exec` of that command. -/
theorem step_of_row {s : State} {id : Nat} {b : Block} {pos : Position} {i : Instr} (h : s.atRow id b pos)
    (hi : pos.instr b.work.st = some i) : step s = advance (exec i s) := by
  obtain ⟨hturn, hb, hp⟩ := h
  have hself : s.self = some (id, b) := (s.self_eq_some id b).mpr ⟨hturn, hb⟩
  have hfetch : s.fetch = .command i := by simp [State.fetch, hself, hp, hi]
  simp [step, hturn, sequencerStep, hfetch]

/-- The first row of a command belongs to it, under the stereo flag that its start latches (R79). -/
theorem Position.instr_first_ok {b : Block} {wd : Word} {i : Instr} (h : decode wd = .ok i) :
    (Position.first (.ok i)).instr (b.startCommand wd).work.st = some i := by
  cases i <;> simp [Position.first, Position.instr, Block.startCommand, h]

/-- After the write of a command word the sequencer stands at the command's first row and has the turn. -/
theorem State.loadCommand_atRow {s : State} {b : Block} {wd : Word} (hb : s.block? s.fetchId = some b) :
    (s.loadCommand wd).atRow s.fetchId (b.startCommand wd) (Position.first (decode wd)) := by
  unfold State.loadCommand
  rw [hb]
  exact ⟨rfl, State.block?_setBlock_self _ _ _, rfl⟩

/-- Settles O4: a loaded command stands at its first row, and at every row `step` is `exec`. -/
theorem stepRunsTheDecodedCommand : Obligations.StepRunsTheDecodedCommand := by
  refine ⟨fun s b wd i hb hd => ?_, fun s id b pos i h hi => step_of_row h hi⟩
  refine step_of_row (State.loadCommand_atRow hb) ?_
  rw [hd]
  exact Position.instr_first_ok hd

/-! ## The fields of `STATUS` -/

/-- A bit of `STATUS`: the fields from the lowest up (R27). -/
theorem Block.getLsbD_status (b : Block) (i : Nat) : b.status.getLsbD i =
    if i < 1 then (BitVec.ofBool b.busy).getLsbD i
    else if i < 2 then (BitVec.ofBool b.result).getLsbD (i - 1)
    else if i < 4 then false
    else if i < 8 then b.errCode.toBits.getLsbD (i - 4)
    else if i < 10 then b.lifecycle.toBits.getLsbD (i - 8)
    else if i < 11 then (BitVec.ofBool b.chMode.toBit).getLsbD (i - 10)
    else if i < 12 then (BitVec.ofBool b.cfgValid).getLsbD (i - 11)
    else false := by
  simp only [Block.status, BitVec.getLsbD_append]
  grind

/-- A field of `STATUS` is `x` where its bits are. -/
theorem Block.status_field {b : Block} {start len : Nat} {x : BitVec len}
    (h : ∀ i, i < len → b.status.getLsbD (start + i) = x.getLsbD i) : b.status.extractLsb' start len = x :=
  BitVec.eq_of_getLsbD_eq fun i hi => by
    rw [BitVec.getLsbD_extractLsb', h i hi, decide_eq_true hi, Bool.true_and]

theorem Block.status_errCode (b : Block) : b.status.extractLsb' 4 4 = b.errCode.toBits :=
  Block.status_field fun i hi => by rw [Block.getLsbD_status]; grind

theorem Block.status_lifecycle (b : Block) : b.status.extractLsb' 8 2 = b.lifecycle.toBits :=
  Block.status_field fun i hi => by rw [Block.getLsbD_status]; grind

theorem Block.status_reserved (b : Block) :
    b.status.extractLsb' 2 2 = 0 ∧ b.status.extractLsb' 12 20 = 0 :=
  ⟨Block.status_field fun i hi => by rw [Block.getLsbD_status]; grind,
    Block.status_field fun i hi => by rw [Block.getLsbD_status]; grind⟩

/-- Settles O9: each field from its bits, and then the numbers of the codes and of the lifecycle values. -/
theorem statusFields : Obligations.StatusFields := by
  intro b
  refine ⟨?_, ?_, b.status_reserved.1, ?_, ?_, ?_, ?_, b.status_reserved.2⟩
  · rw [Block.status_busy]
    simp [Block.busy, Option.isSome_iff_ne_none]
  · rw [Block.getLsbD_status]; simp
  · rw [Block.status_errCode]
    cases b.errCode <;> rfl
  · rw [Block.status_lifecycle]
    cases b.lifecycle <;> rfl
  · rw [Block.getLsbD_status]
    cases b.chMode <;> simp [ChMode.toBit]
  · rw [Block.getLsbD_status]; simp

/-! ## Writes of the port's other registers -/

/-- A 32-bit host write to a register of the port. -/
theorem step_wr {s : State} {port : Nat} {b : Block} {off : BitVec 6} {v : Word} {rest : List HostOp}
    {r : PortReg} (hturn : s.turn = .host) (hprog : s.program = .wr port 32 off v :: rest)
    (hb : s.block? port = some b) (hr : portTarget 32 off = .reg r) :
    step s = match b.writePort r v with
      | none => .fault .concurrent
      | some b' => .next ({ s with program := rest }.setBlock port b').nextAnswer := by
  have hb' : State.block? { s with program := rest } port = some b := hb
  rw [step_of_host hturn]
  simp only [hostStep, hprog, State.portWrite, hb', hr]
  cases b.writePort r v <;> rfl

/-- Settles O8, register by register of the port's map. -/
theorem portRegisterWrites : Obligations.PortRegisterWrites := by
  intro s port b off v rest hturn hprog hb
  have hwrite := fun r => step_wr (r := r) hturn hprog hb
  refine ⟨fun b' hb' => ?_, fun hoff => ?_⟩
  · obtain ⟨r, hr, hw⟩ : ∃ r, portTarget 32 off = .reg r ∧
        b.writePort r v = if b.busy then none else some b' := by
      rcases hb' with ⟨rfl, rfl⟩ | ⟨rfl, rfl⟩ | ⟨rfl, rfl⟩
      · exact ⟨.argRate, by decide, rfl⟩
      · exact ⟨.argCount, by decide, rfl⟩
      · exact ⟨.argBuf, by decide, rfl⟩
    rw [hwrite r hr, hw]
    constructor
    · intro hn
      rw [if_pos (by simpa [Block.busy, Option.isSome_iff_ne_none] using hn)]
    · intro hn
      rw [if_neg (by simp [Block.busy, hn])]
  · obtain ⟨r, hr, hw⟩ : ∃ r, portTarget 32 off = .reg r ∧ b.writePort r v = some b := by
      rcases hoff with rfl | rfl | rfl | rfl | rfl
      · exact ⟨.status, by decide, rfl⟩
      · exact ⟨.resWord, by decide, rfl⟩
      · exact ⟨.cfgGdiv, by decide, rfl⟩
      · exact ⟨.cfgSdiv, by decide, rfl⟩
      · exact ⟨.cfgFbck, by decide, rfl⟩
    refine ⟨{ s with program := rest }.setBlock port b, ?_, fun j => ?_, rfl, rfl, fun _ => rfl,
      ⟨fun _ => rfl, fun _ _ => rfl⟩, fun _ => ⟨rfl, rfl⟩, rfl⟩
    · rw [hwrite r hr, hw]
    · rw [State.block?_setBlock]
      split
      · next hj => rw [hj, hb]
      · rfl

/-! ## READ_BUF's rows of one word -/

/-- A poll row holds at 0, faults where another block owns the engine, and else goes on (R147, R161). -/
theorem State.pollRow_cases (s : State) (id : Nat) (b : Block) (next : Position) :
    ((s.engine b.e).rxrdy.get b.m = false → s.pollRow id b next = .next s) ∧
    ((s.engine b.e).rxrdy.get b.m = true →
      (∀ o, s.owner b.e = some o → o ≠ id → s.pollRow id b next = .fault .sharedEngine) ∧
      (s.owner b.e = none ∨ s.owner b.e = some id →
        s.pollRow id b next = .next ((s.log (.rdReady b.e b.m true)).setBlock id (b.goto next)))) := by
  refine ⟨fun h => ?_, fun h => ⟨fun o ho hne => ?_, fun ho => ?_⟩⟩ <;>
    simp only [State.pollRow, State.ready, h]
  · rfl
  · have hother : s.ownedByOther b.e id = true := by simp [State.ownedByOther, ho, hne]
    simp [hother]
  · have hother : s.ownedByOther b.e id = false := by
      rcases ho with ho | ho <;> simp [State.ownedByOther, ho]
    simp [hother]

theorem byteOf_eq (en : Endian) (w : Word) (j : Nat) :
    byteOf en w j = w.extractLsb' (if en = .le then 8 * j else 24 - 8 * j) 8 := by
  cases en <;> simp [byteOf]

/-- Q5 stores where the store is admitted, and else stands still (R57, R171). -/
theorem storeRow_of_memOk {s : State} {id : Nat} {b : Block} (h : s.memOk b.storeAddr = true) :
    storeRow id b s = (s.memWrite b.storeAddr b.work.w).setBlock id (b.goto (.readBuf .q6)) :=
  if_pos h

theorem storeRow_of_not_memOk {s : State} {id : Nat} {b : Block} (h : s.memOk b.storeAddr = false) :
    storeRow id b s = s :=
  if_neg (by simp [h])

/-- Settles O34: each row as `exec_row` runs it. -/
theorem readBufWordRows : Obligations.ReadBufWordRows := by
  intro s id b
  refine ⟨fun h => ?_, fun h => ?_, fun h => ?_, fun h => ?_⟩ <;>
    rw [exec_row (i := .readBuf) h rfl] <;> simp only [rowStep, readBufRow]
  · obtain ⟨hhold, hgo⟩ := s.pollRow_cases id b (.readBuf .q4)
    refine ⟨hhold, fun hr => ⟨(hgo hr).1, fun ho => ⟨_, (hgo hr).2 ho, ?_, rfl, rfl⟩⟩⟩
    exact State.block?_setBlock_self _ _ _
  · refine ⟨_, _, rfl, rfl, State.block?_setBlock_self _ _ _, ?_, rfl⟩
    simp [State.rdData]
  · refine ⟨fun hm => by rw [storeRow_of_not_memOk hm], fun hm => ?_⟩
    refine ⟨_, rfl, ?_⟩
    rw [storeRow_of_memOk hm]
    refine ⟨State.block?_setBlock_self _ _ _, rfl, s.readWord_memWrite_self _ _, fun j hj => ?_, rfl⟩
    refine (s.readByte_memWrite b.storeAddr b.work.w _).trans ?_
    rw [if_pos (by simp only [Block.storeAddr, bufAddr]; omega), ← byteOf_eq]
    simp [Block.storeAddr, bufAddr]
  · refine ⟨fun hlt => ?_, fun hge => ?_⟩
    · rw [if_pos (by push_cast; exact hlt)]; rfl
    · rw [if_neg (by push_cast; omega)]; rfl

end Sys2Proof.Machine
end

section
/-! The host's accesses: loads of the port (R54, R63) and `WAIT` (R87), the accesses the port does not define
(R53, R55), and loads and stores of BUF (R57, R59); then the canonical form of host memory. -/

namespace Sys2Proof.Machine

/-! ## Loads of the port, and `WAIT` -/

/-- A host load of a register hands the host its value and changes nothing else (R63). -/
theorem step_rd {s : State} {port width : Nat} {b : Block} {off : BitVec 6} {rest : List HostOp} {r : PortReg}
    (hturn : s.turn = .host) (hprog : s.program = .rd port width off :: rest)
    (hb : s.block? port = some b) (hr : portTarget width off = .reg r) :
    step s = .next
      ({ s with program := rest, received := s.received ++ [b.readPort r] }.nextAnswer) := by
  have hb' : State.block? { s with program := rest } port = some b := hb
  rw [step_of_host hturn]
  simp only [hostStep, hprog, State.portRead, hb', hr, advance]

/-- `WAIT` holds while the block is busy, and else goes on (R87). -/
theorem step_wait {s : State} {port : Nat} {b : Block} {rest : List HostOp} (hturn : s.turn = .host)
    (hprog : s.program = .wait port :: rest) (hb : s.block? port = some b) :
    step s = .next (if b.busy then s else { s with program := rest }).nextAnswer := by
  rw [step_of_host hturn]
  simp only [hostStep, hprog, State.waitStep, hb]
  cases b.busy <;> rfl

/-- Settles O6: `WAIT` by the value of `BUSY`, and a load register by register of the port's map. -/
theorem portReadReturnsRegister : Obligations.PortReadReturnsRegister := by
  refine ⟨fun s port b rest hturn hprog hb => ?_, fun s port b off rest hturn hprog hb v hv => ?_⟩
  · rw [step_wait hturn hprog hb, Block.status_busy]
    exact ⟨fun h => by rw [if_pos h], fun h => by rw [if_neg (by simp [h])]⟩
  · obtain ⟨r, hr, rfl⟩ : ∃ r, portTarget 32 off = .reg r ∧ b.readPort r = v := by
      rcases hv with ⟨rfl, rfl⟩ | ⟨rfl, rfl⟩ | ⟨rfl, rfl⟩ | ⟨rfl, rfl⟩ | ⟨rfl, rfl⟩ | ⟨rfl, rfl⟩ |
        ⟨rfl, rfl⟩ | ⟨rfl, rfl⟩ | ⟨rfl, rfl⟩
      · exact ⟨.cmd, by decide, rfl⟩
      · exact ⟨.argRate, by decide, rfl⟩
      · exact ⟨.argCount, by decide, rfl⟩
      · exact ⟨.argBuf, by decide, rfl⟩
      · exact ⟨.status, by decide, rfl⟩
      · exact ⟨.resWord, by decide, rfl⟩
      · exact ⟨.cfgGdiv, by decide, rfl⟩
      · exact ⟨.cfgSdiv, by decide, rfl⟩
      · exact ⟨.cfgFbck, by decide, rfl⟩
    exact step_rd hturn hprog hb hr

/-! ## Accesses that the port does not define -/

theorem portTarget_reserved {width : Nat} {off : BitVec 6} (h : 0x24 ≤ off.toNat) :
    portTarget width off = .reserved := if_pos h

theorem portTarget_undefinedAccess {width : Nat} {off : BitVec 6} (hlt : off.toNat < 0x24)
    (h : width ≠ 32 ∨ off.toNat % 4 ≠ 0) : portTarget width off = .undefinedAccess := by
  rw [portTarget, if_neg (by omega), if_pos h]

/-- A host access to what is no register of the port is the fault of what stands there, whether it stores or
loads. -/
theorem step_port_fault {s : State} {port width : Nat} {b : Block} {off : BitVec 6} {v : Word}
    {rest : List HostOp} (hturn : s.turn = .host) (hb : s.block? port = some b)
    (hprog : s.program = .wr port width off v :: rest ∨ s.program = .rd port width off :: rest) :
    (portTarget width off = .reserved → step s = .fault .portReserved) ∧
    (portTarget width off = .undefinedAccess → step s = .fault .portAccess) := by
  have hb' : State.block? { s with program := rest } port = some b := hb
  rw [step_of_host hturn]
  constructor <;> intro ht <;> rcases hprog with hp | hp <;>
    simp only [hostStep, hp, State.portWrite, State.portRead, hb', ht, advance]

/-- Settles O7, by what stands at the access's offset. -/
theorem undefinedPortAccessFaults : Obligations.UndefinedPortAccessFaults := by
  intro s port width b off v rest hturn hb hprog
  obtain ⟨hreserved, hundefined⟩ := step_port_fault hturn hb hprog
  exact ⟨fun h => hreserved (portTarget_reserved h),
    fun hlt h => hundefined (portTarget_undefinedAccess hlt h)⟩

/-! ## Loads and stores of BUF -/

section
variable {s : State} {a : Word} {rest : List HostOp}

theorem hostStep_loadByte (h : s.program = .loadByte a :: rest) :
    hostStep s = State.hostLoad { s with program := rest } 1 a.toNat ((s.readByte a.toNat).setWidth 32) := by
  simp only [hostStep, h]; rfl

theorem hostStep_loadHalf (h : s.program = .loadHalf a :: rest) :
    hostStep s = State.hostLoad { s with program := rest } 2 a.toNat ((s.readHalf a.toNat).setWidth 32) := by
  simp only [hostStep, h]; rfl

theorem hostStep_mrd (h : s.program = .mrd a :: rest) :
    hostStep s = State.hostLoad { s with program := rest } 4 a.toNat (s.readWord a.toNat) := by
  simp only [hostStep, h]; rfl

theorem hostStep_storeByte {v : Byte} (h : s.program = .storeByte a v :: rest) :
    hostStep s = State.hostStore { s with program := rest } 1 a.toNat (s.buf.writeByte a.toNat v) := by
  simp only [hostStep, h]; rfl

theorem hostStep_storeHalf {v : BitVec 16} (h : s.program = .storeHalf a v :: rest) :
    hostStep s = State.hostStore { s with program := rest } 2 a.toNat
      (s.buf.writeHalf s.params.hostEndian a.toNat v) := by
  simp only [hostStep, h]; rfl

theorem hostStep_mwr {v : Word} (h : s.program = .mwr a v :: rest) :
    hostStep s = State.hostStore { s with program := rest } 4 a.toNat
      (s.buf.writeWord s.params.hostEndian a.toNat v) := by
  simp only [hostStep, h]; rfl

end

/-- A step at a host load of the `n` bytes at `a` whose value is `v`. -/
theorem step_of_hostLoad {s : State} {n a : Nat} {v : Word} {rest : List HostOp} (hturn : s.turn = .host)
    (h : hostStep s = State.hostLoad { s with program := rest } n a v) :
    (s.accessOk n a = true → step s =
      .next ({ s with program := rest, received := s.received ++ [v] }.nextAnswer)) ∧
    (s.accessOk n a = false → step s = .fault .hostMemory) := by
  rw [step_of_host hturn, h]
  exact ⟨fun hok => congrArg advance (State.hostLoad_ok (s := { s with program := rest }) v hok),
    fun hok => congrArg advance (State.hostLoad_not_ok (s := { s with program := rest }) v hok)⟩

/-- A step at a host store that puts `bytes` at the `n` bytes from `a` on. -/
theorem step_of_hostStore {s : State} {n a : Nat} {m : Memory} {bytes : Nat → Byte} {rest : List HostOp}
    (hturn : s.turn = .host) (h : hostStep s = State.hostStore { s with program := rest } n a m)
    (hm : ∀ x, Table.at? m x = if a ≤ x ∧ x < a + n then some (bytes (x - a)) else Table.at? s.buf x) :
    (s.accessOk n a = true → ∃ t : State, step s = .next t.nextAnswer ∧
      t = { s with program := rest, buf := t.buf } ∧
      ∀ x, t.readByte x = if a ≤ x ∧ x < a + n then bytes (x - a) else s.readByte x) ∧
    (s.accessOk n a = false → step s = .fault .hostMemory) := by
  rw [step_of_host hturn, h]
  refine ⟨fun hok => ⟨State.setBuf { s with program := rest } m,
      congrArg advance (State.hostStore_ok (s := { s with program := rest }) m hok), rfl, fun x => ?_⟩,
    fun hok => congrArg advance (State.hostStore_not_ok (s := { s with program := rest }) m hok)⟩
  simp only [State.readByte, State.setBuf_buf, hm]
  split <;> rfl

/-- A store to memory leaves admitted what was (R57). -/
@[simp] theorem State.accessOk_memWrite (s : State) (a : Nat) (w : Word) (n x : Nat) :
    (s.memWrite a w).accessOk n x = s.accessOk n x := rfl

theorem halfByteOf_eq (en : Endian) (h : BitVec 16) (j : Nat) :
    halfByteOf en h j = h.extractLsb' (if en = .le then 8 * j else 8 - 8 * j) 8 := by
  cases en <;> rfl

/-- Two neighbouring bytes of a word, put together as a halfword, are 16 bits of the word (R59). -/
theorem halfOfBytes_byteOf (en : Endian) (w : Word) {j : Nat} (hj : j < 3) :
    halfOfBytes en (byteOf en w j) (byteOf en w (j + 1)) =
      w.extractLsb' (if en = .le then 8 * j else 16 - 8 * j) 16 := by
  cases en with
  | le => exact BitVec.extractLsb'_append_extractLsb'_eq_extractLsb' (by omega)
  | be =>
    have hlow : 24 - 8 * (j + 1) = 16 - 8 * j := by omega
    simp only [halfOfBytes, byteOf, hlow]
    exact BitVec.extractLsb'_append_extractLsb'_eq_extractLsb' (by omega)

/-- A byte of a word that was stored (R59). -/
theorem State.readByte_memWrite_inside (s : State) (addr : Nat) (w : Word) {j : Nat} (hj : j < 4) :
    (s.memWrite addr w).readByte (addr + j) =
      w.extractLsb' (if s.params.hostEndian = .le then 8 * j else 24 - 8 * j) 8 := by
  rw [State.readByte_memWrite, if_pos (by omega), byteOf_eq, Nat.add_sub_cancel_left]

/-- A halfword of a word that was stored (R59, log entry 33). -/
theorem State.readHalf_memWrite_inside (s : State) (addr : Nat) (w : Word) {j : Nat} (hj : j < 3) :
    (s.memWrite addr w).readHalf (addr + j) =
      w.extractLsb' (if s.params.hostEndian = .le then 8 * j else 16 - 8 * j) 16 := by
  have hp : (s.memWrite addr w).params = s.params := rfl
  rw [State.readHalf, Nat.add_assoc, s.readByte_memWrite_inside addr w (by omega),
    s.readByte_memWrite_inside addr w (by omega), ← byteOf_eq, ← byteOf_eq, hp, halfOfBytes_byteOf _ _ hj]

/-- Settles O60: a load by its width and what it reads of the stored word, a store by its width and the bytes it
leaves; and no step changes a parameter. -/
theorem hostSeesTheStoredBytes : Obligations.HostSeesTheStoredBytes := by
  refine ⟨fun s addr j n w a v op rest hturn hprog ha hop => ?_,
    fun s n a vw vh vb bytes op rest hturn hprog hop => ?_, fun s t h => by rw [step_params h]⟩
  · have hprog' : (s.memWrite addr w).program = op :: rest := hprog
    have hload : hostStep (s.memWrite addr w) =
        State.hostLoad { s.memWrite addr w with program := rest } n a.toNat v := by
      rcases hop with ⟨rfl, rfl, hj, rfl⟩ | ⟨rfl, rfl, hj, rfl⟩ | ⟨rfl, rfl, rfl, rfl⟩
      · rw [hostStep_loadByte hprog', ha, s.readByte_memWrite_inside addr w hj]
      · rw [hostStep_loadHalf hprog', ha, s.readHalf_memWrite_inside addr w hj]
      · rw [hostStep_mrd hprog', ha]
        exact congrArg _ (s.readWord_memWrite_self addr v)
    rw [← s.accessOk_memWrite addr w]
    exact step_of_hostLoad (s := s.memWrite addr w) hturn hload
  · obtain ⟨m, hstore, hm⟩ : ∃ m, hostStep s = State.hostStore { s with program := rest } n a.toNat m ∧
        ∀ x, Table.at? m x = if a.toNat ≤ x ∧ x < a.toNat + n then some (bytes (x - a.toNat))
          else Table.at? s.buf x := by
      rcases hop with ⟨rfl, rfl, rfl⟩ | ⟨rfl, rfl, rfl⟩ | ⟨rfl, rfl, rfl⟩
      · refine ⟨_, hostStep_storeByte hprog, fun x => ?_⟩
        have hx : x = a.toNat ↔ a.toNat ≤ x ∧ x < a.toNat + 1 := by omega
        simp only [Memory.at?_writeByte, hx]
      · exact ⟨_, hostStep_storeHalf hprog, fun x => by simp only [Memory.at?_writeHalf, halfByteOf_eq]⟩
      · exact ⟨_, hostStep_mwr hprog, fun x => by simp only [Memory.at?_writeWord, byteOf_eq]⟩
    exact step_of_hostStore hturn hstore hm

/-! ## The canonical form of host memory -/

/-- A host store keeps the canonical form if what it leaves has it wherever the access is admitted. -/
theorem State.hostStore_buf_wf {s t : State} {n a : Nat} {m : Memory} (h : s.hostStore n a m = .next t)
    (hm : a + n ≤ 2 ^ 32 → m.wf = true) : t.buf.wf = true := by
  obtain ⟨hok, rfl⟩ := State.hostStore_next h
  exact hm (State.accessOk_le hok)

theorem State.portWrite_buf {s t : State} {port width : Nat} {off : BitVec 6} {v : Word}
    (h : s.portWrite port width off v = .next t) : t.buf = s.buf := by
  unfold State.portWrite at h
  split at h
  · cases h
  · split at h
    · cases h
    · cases h
    · split at h <;> cases h
      rfl

theorem State.portRead_buf {s t : State} {port width : Nat} {off : BitVec 6}
    (h : s.portRead port width off = .next t) : t.buf = s.buf := by
  unfold State.portRead at h
  split at h
  · cases h
  · split at h <;> cases h
    rfl

theorem State.waitStep_buf {s t : State} {port : Nat} {rest : List HostOp}
    (h : s.waitStep port rest = .next t) : t.buf = s.buf := by
  unfold State.waitStep at h
  split at h
  · cases h
  · split at h <;> cases h <;> rfl

theorem State.hostLoad_buf {s t : State} {n a : Nat} {v : Word} (h : s.hostLoad n a v = .next t) :
    t.buf = s.buf := by
  obtain ⟨-, rfl⟩ := State.hostLoad_next h
  rfl

/-- The host's step keeps the canonical form: an admitted store lies below `2^32`, and nothing else of the host's
writes memory. -/
theorem hostStep_buf_wf {s u : State} (hwf : s.buf.wf = true) (h : hostStep s = .next u) :
    u.buf.wf = true := by
  cases hp : s.program with
  | nil => simp only [hostStep, hp] at h; cases h; exact hwf
  | cons op rest =>
    cases op with
    | wr port width off v => simp only [hostStep, hp] at h; rw [State.portWrite_buf h]; exact hwf
    | rd port width off => simp only [hostStep, hp] at h; rw [State.portRead_buf h]; exact hwf
    | wait port => simp only [hostStep, hp] at h; rw [State.waitStep_buf h]; exact hwf
    | mrd a => rw [hostStep_mrd hp] at h; rw [State.hostLoad_buf h]; exact hwf
    | loadByte a => rw [hostStep_loadByte hp] at h; rw [State.hostLoad_buf h]; exact hwf
    | loadHalf a => rw [hostStep_loadHalf hp] at h; rw [State.hostLoad_buf h]; exact hwf
    | mwr a v =>
      rw [hostStep_mwr hp] at h
      exact State.hostStore_buf_wf h fun ha => Memory.wf_writeWord _ v hwf (by omega)
    | storeByte a v =>
      rw [hostStep_storeByte hp] at h
      exact State.hostStore_buf_wf h fun ha => Memory.wf_writeByte v hwf (by omega)
    | storeHalf a v =>
      rw [hostStep_storeHalf hp] at h
      exact State.hostStore_buf_wf h fun ha => Memory.wf_writeHalf _ v hwf (by omega)
    | construct cp dp k => simp only [hostStep, hp] at h; cases h; exact hwf

/-- Only a store changes the table of host memory's bytes. -/
theorem RowAction.apply_buf (b : Block) (s : State) {a : RowAction} (ha : a ≠ .store) :
    (a.apply b s).buf = s.buf := by
  cases a with
  | store => exact absurd rfl ha
  | call op => exact (s.afterCall_callOnly op).buf
  | callRelease op => exact (s.afterCall_callOnly op).buf
  | _ => rfl

/-- Q5's store lies below `2^32`, or Q5 stands still (R57, R171). -/
theorem storeRow_buf_wf {s : State} (id : Nat) (b : Block) (hwf : s.buf.wf = true) :
    (storeRow id b s).buf.wf = true := by
  cases hok : s.memOk b.storeAddr with
  | true =>
    rw [storeRow_of_memOk hok]
    exact Memory.wf_writeWord _ _ hwf (State.memOk_lt hok)
  | false => rwa [storeRow_of_not_memOk hok]

/-- A row keeps the canonical form: Q5 alone writes memory. -/
theorem rowStep_buf_wf {s u : State} {id : Nat} {b : Block} {pos : Position} (hwf : s.buf.wf = true)
    (h : rowStep pos id b s = .next u) : u.buf.wf = true := by
  by_cases hpos : pos = .readBuf .q5
  · subst hpos
    cases h
    exact storeRow_buf_wf id b hwf
  · rcases rowStep_takes h with ⟨rfl, -⟩ | ⟨b', rfl⟩
    · exact hwf
    · rw [State.setBlock_buf, RowAction.apply_buf b s (mt Block.actionAt_eq_store hpos)]
      exact hwf

/-- Settles O44, by the agent whose step it is. -/
theorem memoryStaysCanonical : Obligations.MemoryStaysCanonical := by
  intro s t hwf h
  obtain ⟨u, rfl, hcases⟩ := step_cases h
  rw [State.nextAnswer_buf]
  rcases hcases with ⟨-, hu⟩ | ⟨_, _, _, -, -, -, hu⟩ | ⟨-, rfl⟩ | ⟨e, m, -, rfl⟩
  · exact hostStep_buf_wf hwf hu
  · exact rowStep_buf_wf hwf hu
  · exact hwf
  · rw [(producerStep_engineOnly s e m).buf]
    exact hwf

end Sys2Proof.Machine
end

section
/-! The command word: its fields, and decoding against encoding (R75, R77, R78, R82). -/

namespace Sys2Proof

/-! ## Words and their fields -/

/-- The fields of a word, put together again, are the word (R75). -/
@[simp] theorem wordOf_fieldsOf (wd : Word) : wordOf (fieldsOf wd) = wd := by
  have hs : BitVec.ofBool (stereoField wd) = wd.extractLsb' 8 1 := by
    ext i hi
    obtain rfl : i = 0 := by omega
    simp [stereoField]
  simp only [wordOf, fieldsOf, hs, opcodeField, reservedField]
  rw [BitVec.extractLsb'_append_extractLsb'_eq_extractLsb' (by omega),
    BitVec.extractLsb'_append_extractLsb'_eq_extractLsb' (by omega)]
  exact BitVec.extractLsb'_eq_self

/-- A command's word carries the command's fields (R77). -/
theorem fieldsOf_encode (i : Instr) : fieldsOf (encode i) = i.commandFields := by
  cases i with
  | begin => exact Laws.CarriesFields.begin
  | end_ => exact Laws.CarriesFields.end_
  | configure stereo => exact Laws.CarriesFields.configure stereo
  | read => exact Laws.CarriesFields.read
  | readBuf => exact Laws.CarriesFields.readBuf
  | getSerIndex => exact Laws.CarriesFields.getSerIndex

/-- A word is a command's word exactly when it carries the command's fields. -/
theorem eq_encode_iff (wd : Word) (i : Instr) : wd = encode i ↔ fieldsOf wd = i.commandFields := by
  constructor
  · rintro rfl
    exact fieldsOf_encode i
  · intro h
    rw [← wordOf_fieldsOf wd, h, encode]

/-- The fields of a command pass the three checks of R75 and R82. -/
theorem Instr.wf_eq_true (i : Instr) : i.wf = true := by
  cases i with
  | configure stereo => cases stereo <;> rfl
  | _ => rfl

/-! ## Decoding -/

/-- The words of the opcode map (R77). -/
theorem encode_words :
    encode .begin = 0x00000001 ∧ encode .end_ = 0x00000002 ∧
    encode (.configure false) = 0x00000003 ∧ encode (.configure true) = 0x00000103 ∧
    encode .read = 0x00000004 ∧ encode .readBuf = 0x00000005 ∧ encode .getSerIndex = 0x00000006 := by
  decide

@[simp] theorem decode_encode (i : Instr) : decode (encode i) = .ok i := by
  cases i with
  | begin => exact decode_begin_word
  | end_ => exact decode_end_word
  | configure stereo =>
    cases stereo
    · exact decode_configure_mono_word
    · exact decode_configure_stereo_word
  | read => exact decode_read_word
  | readBuf => exact decode_readBuf_word
  | getSerIndex => exact decode_getSerIndex_word

/-- A word with a reserved bit set is refused (R82). -/
theorem decode_of_reserved {wd : Word} (h : reservedField wd ≠ 0) : decode wd = .error .reservedBits :=
  if_pos h

/-- `S` is refused on every opcode but CONFIGURE's (R82). -/
theorem decode_of_stereo {wd : Word} (hr : reservedField wd = 0) (hs : stereoField wd = true)
    (ho : opcodeField wd ≠ 0x03) : decode wd = .error .stereoNotAllowed := by
  rw [decode, if_neg (not_not_intro hr), if_neg ho, if_pos hs]

/-- A word that decodes to a command carries the command's fields: each check that it passed fixes one of
them. -/
theorem fieldsOf_of_decode {wd : Word} {i : Instr} (h : decode wd = .ok i) :
    fieldsOf wd = i.commandFields := by
  by_cases hr : reservedField wd = 0
  · by_cases ho : opcodeField wd = 0x03
    · rw [decode, if_neg (not_not_intro hr), if_pos ho] at h
      cases h
      simp [fieldsOf, Instr.commandFields, hr, ho]
    · cases hs : stereoField wd with
      | true => rw [decode_of_stereo hr hs ho] at h; cases h
      | false =>
        simp only [decode, hr, ho, hs, ne_eq, not_true_eq_false, if_false, Bool.false_eq_true] at h
        split_ifs at h with hop hop hop hop hop <;> cases h <;>
          simp only [fieldsOf, Instr.commandFields, hr, hs, hop]
  · rw [decode_of_reserved hr] at h; cases h

/-- Decoding inverts encoding, and nothing but a command's own word decodes to it (R78). -/
theorem decode_eq_ok_iff (wd : Word) (i : Instr) : decode wd = .ok i ↔ wd = encode i := by
  constructor
  · intro h
    exact (eq_encode_iff wd i).mpr (fieldsOf_of_decode h)
  · rintro rfl
    exact decode_encode i

/-- Settles O1: decoding inverts encoding both ways, and the two refusals are the decoder's first checks. -/
theorem decodeExactlyTheSevenWords : Obligations.DecodeExactlyTheSevenWords := by
  obtain ⟨hbegin, hend, hmono, hstereo, hread, hreadBuf, hgetSerIndex⟩ := encode_words
  refine ⟨decode_eq_ok_iff, Instr.wf_eq_true, hbegin, hend, hmono, hstereo, hread, hreadBuf, hgetSerIndex,
    fun wd h => ?_⟩
  by_cases hr : reservedField wd = 0
  · obtain ⟨hs, ho⟩ := h.resolve_left (not_not_intro hr)
    exact ⟨_, decode_of_stereo hr hs ho⟩
  · exact ⟨_, decode_of_reserved hr⟩

/-- Settles O2: the words of commands by the decoder's own equations, the ILLEGAL words by evaluation. -/
theorem decodeVectors : Obligations.DecodeVectors :=
  ⟨decode_begin_word, decode_end_word, decode_configure_stereo_word, decode_read_word,
    decode_readBuf_word, decode_getSerIndex_word, by decide, by decide, by decide, by decide, by decide⟩

end Sys2Proof
end

section
/-! The start of a command by a host write of `CMD` (R79), and the one row of ILLEGAL (R81). -/

namespace Sys2Proof.Machine

/-! ## The start of a command -/

@[simp] theorem Block.startCommand_seq (b : Block) (wd : Word) :
    (b.startCommand wd).seq = some (Position.first (decode wd)) := rfl

/-- CONFIGURE latches its stereo flag, and no other working register changes (R79). -/
theorem Block.startCommand_work_of_configure (b : Block) {wd : Word} {stereo : Bool}
    (h : decode wd = .ok (.configure stereo)) : (b.startCommand wd).work = { b.work with st := stereo } := by
  simp only [Block.startCommand, h]

/-- Every other word leaves the working registers as they were (R79). -/
theorem Block.startCommand_work_of_ne_configure (b : Block) {wd : Word}
    (h : ∀ stereo, decode wd ≠ .ok (.configure stereo)) : (b.startCommand wd).work = b.work := by
  unfold Block.startCommand
  split
  · next stereo hd => exact absurd hd (h stereo)
  · rfl

/-- Command start touches the working registers in the stereo flag alone (R79). -/
theorem Block.startCommand_work (b : Block) (wd : Word) :
    (b.startCommand wd).work = { b.work with st := (b.startCommand wd).work.st } := by
  by_cases h : ∃ stereo, decode wd = .ok (.configure stereo)
  · obtain ⟨stereo, hd⟩ := h
    rw [b.startCommand_work_of_configure hd]
  · rw [b.startCommand_work_of_ne_configure (not_exists.mp h)]

/-- A 32-bit host write to `CMD`: a fault while the block is busy, and else the start of the command. -/
theorem step_wr_cmd {s : State} {port : Nat} {b : Block} {wd : Word} {rest : List HostOp}
    (hturn : s.turn = .host) (hprog : s.program = .wr port 32 0x00 wd :: rest)
    (hb : s.block? port = some b) :
    (b.seq ≠ none → step s = .fault .concurrent) ∧
    (b.seq = none →
      step s = .next ({ s with program := rest }.setBlock port (b.startCommand wd)).nextAnswer) := by
  have hcmd : portTarget 32 0x00 = .reg .cmd := by decide
  rw [step_wr hturn hprog hb hcmd]
  constructor
  · intro hn
    have hbusy : b.busy = true := Option.isSome_iff_ne_none.mpr hn
    simp only [Block.writePort, hbusy, if_true]
  · intro hn
    have hidle : b.busy = false := by rw [Block.busy, hn]; rfl
    simp only [Block.writePort, hidle, Bool.false_eq_true, if_false]

/-- Settles O3: the started block, by what its word decodes to. -/
theorem commandWriteStartsCommand : Obligations.CommandWriteStartsCommand := by
  intro s port b wd rest hturn hprog hb
  obtain ⟨hbusy, hidle⟩ := step_wr_cmd hturn hprog hb
  have hfirst : ∀ {r : Except DecodeError Instr}, decode wd = r →
      (b.startCommand wd).seq = some (Position.first r) := by
    rintro r rfl
    exact b.startCommand_seq wd
  refine ⟨hbusy, fun hn => ⟨b.startCommand wd, hidle hn, rfl, b.startCommand_work wd, fun h => ?_, hfirst,
    hfirst, fun stereo h => ⟨hfirst h, ?_⟩, hfirst, hfirst, hfirst, fun why => hfirst⟩⟩
  · rw [b.startCommand_work_of_ne_configure h]
  · rw [b.startCommand_work_of_configure h]

/-! ## ILLEGAL -/

/-- At any row, ILLEGAL's among them, the step is that row's. -/
theorem step_of_atRow {s : State} {id : Nat} {b : Block} {pos : Position} (h : s.atRow id b pos) :
    step s = advance (rowStep pos id b s) := by
  obtain ⟨hturn, hb, hp⟩ := h
  rw [← sequencerStep_row ((s.self_eq_some id b).mpr ⟨hturn, hb⟩) hp]
  unfold step
  rw [hturn]

/-- Settles O5: the step is X0's row, which writes the block alone. -/
theorem illegalCommandOnlyFinishes : Obligations.IllegalCommandOnlyFinishes := by
  intro s id b h
  refine ⟨illegalRow id b s, step_of_atRow h, State.block?_setBlock_self _ _ _,
    (s.sameElsewhere_refl id b.e).setBlock _, s.sameMemory_refl, s.sameClocks_refl, ?_, ?_, rfl⟩
  · exact s.engine_setBlock id _ b.e
  · exact s.owner_setBlock id _ b.e

end Sys2Proof.Machine
end

section
/-! The clock-divisor calculator: what the search finds, what an `Ok` says of its divisors and its bit clock, and
when there is one (R95 to R106); and CONFIGURE's row C1, which runs it (R107, R129). -/

namespace Sys2Proof

theorem Params.fRef_pos_of_legal (p : Params) (h : p.legal = true) : 0 < p.fRef := by
  simp only [Params.legal, Bool.and_eq_true, decide_eq_true_eq] at h
  omega

theorem Params.sdivMax_pos_of_legal (p : Params) (h : p.legal = true) : 0 < p.sdivMax := by
  simp only [Params.legal, Bool.and_eq_true, decide_eq_true_eq] at h
  omega

end Sys2Proof

namespace Sys2Proof.Machine

variable {p : Params}

/-! ## The search -/

/-- The search over the whole generic-clock range misses no legal pair (R101, R102). -/
theorem exists_largestLegal {total g : Nat} (h : legalPair p total g = true) :
    ∃ g', largestLegal p total p.gdivMax = some g' := by
  obtain ⟨-, hle, -⟩ := (legalPair_iff p total g).mp h
  exact Option.ne_none_iff_exists'.mp fun hnone =>
    Bool.false_ne_true ((largestLegal_none hnone g hle).symm.trans h)

/-- A division that fits the generic-clock stage is its own largest legal divisor, for no divisor is larger
(R106). -/
theorem largestLegal_self {total : Nat} (hpos : 0 < total) (hle : total ≤ p.gdivMax) (hs : 0 < p.sdivMax) :
    largestLegal p total p.gdivMax = some total := by
  have hlegal : legalPair p total total = true :=
    (legalPair_iff p total total).mpr ⟨hpos, hle, Nat.mod_self total, (Nat.div_self hpos).trans_le hs⟩
  obtain ⟨g, hg⟩ := exists_largestLegal hlegal
  obtain ⟨-, hgl, hmax⟩ := largestLegal_some hg
  obtain ⟨-, -, hmod, -⟩ := (legalPair_iff p total g).mp hgl
  have hge : g ≤ total := Nat.le_of_dvd hpos (Nat.dvd_of_mod_eq_zero hmod)
  have hnlt : ¬ g < total := fun hlt => Bool.false_ne_true ((hmax total hlt hle).symm.trans hlegal)
  rw [hg, Nat.le_antisymm hge (Nat.le_of_not_lt hnlt)]

/-! ## The calculator -/

/-- The calculator gives an `Ok` exactly where every check passes and the search finds a pair (R95). -/
theorem calculate_eq_ok_iff {rate g s f : Nat} :
    calculate p rate = .ok g s f ↔
      rate ≠ 0 ∧ targetClock p rate ≤ p.fSckMax ∧ p.fRef % targetClock p rate = 0 ∧
        largestLegal p (p.fRef / targetClock p rate) p.gdivMax = some g ∧
        s = p.fRef / targetClock p rate / g ∧ f = p.fRef / (g * s) := by
  refine ⟨calculate_ok, ?_⟩
  rintro ⟨hrate, hrated, hexact, hsearch, rfl, rfl⟩
  rw [calculate, if_neg hrate, if_neg (Nat.not_lt.mpr hrated), if_neg (not_not_intro hexact), hsearch]

/-- An exact division of a positive reference clock is positive (R99, R100). -/
theorem division_pos {rate : Nat} (href : 0 < p.fRef) (hexact : p.fRef % targetClock p rate = 0) :
    0 < p.fRef / targetClock p rate := by
  have hdvd := Nat.dvd_of_mod_eq_zero hexact
  exact Nat.div_pos (Nat.le_of_dvd href hdvd) (Nat.pos_of_dvd_of_pos hdvd href)

/-- The two divisors of an `Ok` make up the whole division. -/
theorem calculate_ok_mul {rate g s f : Nat} (h : calculate p rate = .ok g s f) :
    g * s = p.fRef / targetClock p rate := by
  obtain ⟨-, -, -, hsearch, rfl, -⟩ := calculate_ok h
  obtain ⟨-, hpair, -⟩ := largestLegal_some hsearch
  obtain ⟨-, -, hmod, -⟩ := (legalPair_iff _ _ _).mp hpair
  exact Nat.mul_div_cancel' (Nat.dvd_of_mod_eq_zero hmod)

/-- The achieved bit clock of an `Ok` is the target clock (R105). -/
theorem calculate_ok_clock {rate g s f : Nat} (href : 0 < p.fRef) (h : calculate p rate = .ok g s f) :
    f = targetClock p rate := by
  obtain ⟨-, -, hexact, -, -, rfl⟩ := calculate_ok h
  rw [calculate_ok_mul h]
  exact Nat.div_div_self (Nat.dvd_of_mod_eq_zero hexact) href.ne'

/-- Settles O19: the divisors' product is the exact division, and the search's pair is legal and the largest. -/
theorem calculatorOkProperties : Obligations.CalculatorOkProperties := by
  intro p rate g s f hlegal h
  have href := p.fRef_pos_of_legal hlegal
  have hmul := calculate_ok_mul h
  have hclock := calculate_ok_clock href h
  obtain ⟨-, hrated, hexact, hsearch, hs, -⟩ := calculate_ok h
  obtain ⟨-, hpair, hmax⟩ := largestLegal_some hsearch
  obtain ⟨hg, hgle, -, hsle⟩ := (legalPair_iff _ _ _).mp hpair
  have hspos : 0 < s := Nat.pos_of_mul_pos_left (hmul ▸ division_pos href hexact)
  have htpos : 0 < targetClock p rate := Nat.pos_of_dvd_of_pos (Nat.dvd_of_mod_eq_zero hexact) href
  refine ⟨⟨hg, hgle⟩, ⟨hspos, hs ▸ hsle⟩, ?_, hclock, ?_, ?_, fun g' hlt hle hmod hdiv => ?_⟩
  · rw [hmul]
    exact Nat.div_mul_cancel (Nat.dvd_of_mod_eq_zero hexact)
  · rw [hclock]
    exact Nat.mul_mod_right rate p.osr
  · rw [hclock]
    exact ⟨htpos, hrated⟩
  · have hlegal' := (legalPair_iff _ _ _).mpr ⟨Nat.one_le_of_lt hlt, hle, hmod, hdiv⟩
    exact Bool.false_ne_true ((hmax g' hlt hle).symm.trans hlegal')

/-- Settles O20: a legal pair is what the search needs, and what it finds is one. -/
theorem calculatorSucceedsExactlyWhen : Obligations.CalculatorSucceedsExactlyWhen := by
  intro p rate
  constructor
  · rintro ⟨g, s, f, h⟩
    obtain ⟨hrate, hrated, hexact, hsearch, -, -⟩ := calculate_ok h
    obtain ⟨-, hpair, -⟩ := largestLegal_some hsearch
    exact ⟨hrate, hrated, hexact, g, (legalPair_iff _ _ _).mp hpair⟩
  · rintro ⟨hrate, hrated, hexact, g, hpair⟩
    obtain ⟨g', hsearch⟩ := exists_largestLegal ((legalPair_iff _ _ _).mpr hpair)
    exact ⟨g', _, _, calculate_eq_ok_iff.mpr ⟨hrate, hrated, hexact, hsearch, rfl, rfl⟩⟩

/-- Settles O21: the search stops at the whole division, which leaves 1 to the serial stage. -/
theorem calculatorUsesGenericStage : Obligations.CalculatorUsesGenericStage := by
  intro p rate hlegal hrate hrated hexact hle
  have href := p.fRef_pos_of_legal hlegal
  have hpos := division_pos href hexact
  refine calculate_eq_ok_iff.mpr ⟨hrate, hrated, hexact,
    largestLegal_self hpos hle (p.sdivMax_pos_of_legal hlegal), (Nat.div_self hpos).symm, ?_⟩
  rw [Nat.mul_one]
  exact (Nat.div_div_self (Nat.dvd_of_mod_eq_zero hexact) href.ne').symm

/-! ## CONFIGURE's row C1 -/

/-- At a row of CONFIGURE, CONFIGURE with either stereo flag is that row. -/
theorem exec_configure_row {s : State} {id : Nat} {b : Block} {row : ConfigureRow} (stereo : Bool)
    (h : s.atRow id b (.configure row)) : exec (.configure stereo) s = configureRow stereo row id b s := by
  obtain ⟨hturn, hb, hp⟩ := h
  have hself : s.self = some (id, b) := (s.self_eq_some id b).mpr ⟨hturn, hb⟩
  simp only [exec, execConfigure, hself, hp]

/-- C1 on a failure of the calculator (R107, R129). -/
theorem calcRow_of_fail {s : State} {b : Block} {why : CalcFail} (id : Nat)
    (h : calculate s.params b.work.rate.toNat = .fail why) :
    calcRow id b s = s.setBlock id ((b.setCalc (.fail why)).finish .config) := by
  rw [calcRow, h]

/-- C1 on an `Ok` of the calculator (R129). -/
theorem calcRow_of_ok {s : State} {b : Block} {g q f : Nat} (id : Nat)
    (h : calculate s.params b.work.rate.toNat = .ok g q f) :
    calcRow id b s = s.setBlock id ((b.setCalc (.ok g q f)).goto (.configure .c2)) := by
  rw [calcRow, h]

/-- Settles O23, by the two outcomes of the calculator. -/
theorem configureCalculatesFirst : Obligations.ConfigureCalculatesFirst := by
  intro s id b stereo hrow
  have hexec : exec (.configure stereo) s = .next (calcRow id b s) := exec_configure_row stereo hrow
  constructor
  · intro why h
    rw [hexec, calcRow_of_fail id h]
    rfl
  · intro g q f h
    rw [hexec, calcRow_of_ok id h]
    rfl

end Sys2Proof.Machine
end

section
/-! Whole runs of BEGIN and END (R116, R117, R122, R125): a run as a chain of rows on one block, its engine and that
engine's owner, and what each shape of row does to the three. -/

namespace Sys2Proof.Machine

/-! ## The shapes of rows -/

@[simp] theorem State.wrCtrl_trace (s : State) (e : Nat) (f : CtrlField) (v : Bool) :
    (s.wrCtrl e f v).trace = s.trace ++ [.wrCtrl e f v] := rfl

@[simp] theorem State.afterSync_trace (s : State) (e : Nat) (f : CtrlField) :
    (s.afterSync e f).trace = s.trace ++ [.sync e f s.answer.sync] := rfl

@[simp] theorem State.afterSync_engine_self (s : State) (e : Nat) (f : CtrlField) :
    (s.afterSync e f).engine e = (s.engine e).sync f s.answer.engine s.answer.sync := by
  simp [State.engine_afterSync, State.syncOutcome]

section
variable (s : State) (id : Nat) (b : Block) (f : CtrlField)

@[simp] theorem State.ctrlRow_block? (v : Bool) (next : Position) :
    (s.ctrlRow id b f v next).block? id = some (b.goto next) := by simp [State.ctrlRow]

@[simp] theorem State.ctrlRow_engine (v : Bool) (next : Position) :
    (s.ctrlRow id b f v next).engine b.e = (s.engine b.e).wrCtrl f v := by simp [State.ctrlRow]

@[simp] theorem State.ctrlRow_owner (v : Bool) (next : Position) (e : Nat) :
    (s.ctrlRow id b f v next).owner e = s.owner e := by simp [State.ctrlRow]

@[simp] theorem State.ctrlRow_trace (v : Bool) (next : Position) :
    (s.ctrlRow id b f v next).trace = s.trace ++ [.wrCtrl b.e f v] := by simp [State.ctrlRow]

@[simp] theorem State.syncRow_block? (onOk onTimeout : Block) :
    (s.syncRow id b f onOk onTimeout).block? id = some (s.answer.sync.pick onOk onTimeout) := by
  simp [State.syncRow, State.syncOutcome]

@[simp] theorem State.syncRow_engine (onOk onTimeout : Block) :
    (s.syncRow id b f onOk onTimeout).engine b.e =
      (s.engine b.e).sync f s.answer.engine s.answer.sync := by simp [State.syncRow]

@[simp] theorem State.syncRow_owner (onOk onTimeout : Block) (e : Nat) :
    (s.syncRow id b f onOk onTimeout).owner e = s.owner e := by simp [State.syncRow]

@[simp] theorem State.syncRow_trace (onOk onTimeout : Block) :
    (s.syncRow id b f onOk onTimeout).trace = s.trace ++ [.sync b.e f s.answer.sync] := by
  simp [State.syncRow]

theorem CallOutcome.pick_self {α : Type} (o : CallOutcome) (x : α) : o.pick x x = x := by
  cases o <;> rfl

/-- A call after which the block goes on the same way whatever the outcome. -/
theorem State.callRow_self (op : CallOp) :
    s.callRow id op b b = (s.afterCall op).setBlock id b := by
  rw [State.callRow, CallOutcome.pick_self]

end

/-! ## One write of 0 and its `SyncWait` -/

/-- A unit switched off: the write of 0 to its field, and the `SyncWait` as the answer says (R33, R46). -/
def Engine.disable (en : Engine) (f : CtrlField) (a : Answer) : Engine :=
  (en.wrCtrl f false).sync f a.engine a.sync

theorem Engine.disable_ctrl_self (en : Engine) {f : CtrlField} {a : Answer} (hf : f ≠ .swrst)
    (ha : a.sync = .ok) : (en.disable f a).ctrl.get f = false := by
  rw [Engine.disable, ha, Engine.sync_ok, Engine.syncOk_of_ne _ _ _ hf]
  simp

theorem Engine.disable_ctrl_ne (en : Engine) {f g : CtrlField} (a : Answer) (hf : f ≠ .swrst) (hg : g ≠ f) :
    (en.disable f a).ctrl.get g = en.ctrl.get g :=
  (((en.wrCtrl f false).sync_frame a.engine a.sync hf).2.2 g hg).1

/-- The engine after an engine reset that completed, and for as long as only zeros are written: `CTRL`, `SYNCBUSY`
and `RXRDY` are 0 and no write is pending (R49). -/
structure Engine.Quiet (en : Engine) : Prop where
  clean : en.Clean (CtrlFields.all false)
  pending : en.pending = CtrlFields.all none

theorem Engine.Quiet.disable {en : Engine} (h : en.Quiet) {f : CtrlField} {a : Answer} (hf : f ≠ .swrst)
    (ha : a.sync = .ok) : (en.disable f a).Quiet := by
  have hp : (en.wrCtrl f false).pending = (CtrlFields.all none).set f (some false) := by
    rw [Engine.wrCtrl_pending, h.pending]
  refine ⟨?_, Engine.sync_pending hp a.engine a.sync⟩
  rw [Engine.disable, ha]
  exact (h.clean.wrCtrl f false).syncOk hf hp a.engine

/-! ## Runs as chains of rows -/

/-- What the rows of BEGIN and END work on: a block, its engine, and that engine's owner. -/
structure Scene where
  block : Block
  engine : Engine
  owner : Option Nat

/-- Block `id`, its engine and the engine's owner are those of `v`. -/
structure State.Shows (s : State) (id : Nat) (v : Scene) : Prop where
  block : s.block? id = some v.block
  engine : s.engine v.block.e = v.engine
  owner : s.owner v.block.e = v.owner

/-- A state shows each of its blocks with the engine and the owner that it holds for it. -/
theorem State.shows_self {s : State} {id : Nat} {b : Block} (hb : s.block? id = some b) :
    s.Shows id ⟨b, s.engine b.e, s.owner b.e⟩ := ⟨hb, rfl, rfl⟩

/-- The steps from `s` that use up the answers `as` end in `t`: they make the events `evs` and touch no generator and
no route; `rest` are the answers left, and the turn stays with `id` where every answer keeps it. -/
structure State.Ran (s t : State) (id : Nat) (as rest : List Answer) (evs : List Event) : Prop where
  run : Host.Core.run Sys2Proof.core as.length s = .next t
  script : t.script = rest
  trace : t.trace = s.trace ++ evs
  clocks : s.sameClocks t
  turn : (∀ a ∈ as, a.agent = .sequencer id) → t.turn = .sequencer id

/-- With the turn and the answers `as`, the sequencer of block `id` takes every state that shows `v` to one that
shows `v'`, and makes the events `evs`. -/
def Scene.Leads (v : Scene) (id : Nat) (as : List Answer) (evs : List Event) (v' : Scene) : Prop :=
  ∀ (s : State) (rest : List Answer), s.turn = .sequencer id → s.script = as ++ rest → s.Shows id v →
    ∃ t, s.Ran t id as rest evs ∧ t.Shows id v'

theorem State.sameClocks.trans {s t u : State} (h : s.sameClocks t) (h' : t.sameClocks u) : s.sameClocks u :=
  ⟨fun k => (h'.1 k).trans (h.1 k), fun e c => (h'.2 e c).trans (h.2 e c)⟩

theorem core_run_succ {s t : State} (n : Nat) (h : step s = .next t) :
    Host.Core.run Sys2Proof.core (n + 1) s = Host.Core.run Sys2Proof.core n t := by
  have hcore : Sys2Proof.core.step s = .next t := h
  simp only [Host.Core.run, hcore]

theorem core_run_add {s t : State} {n : Nat} (k : Nat) (h : Host.Core.run Sys2Proof.core n s = .next t) :
    Host.Core.run Sys2Proof.core (n + k) s = Host.Core.run Sys2Proof.core k t := by
  induction n generalizing s with
  | zero =>
    cases h
    rw [Nat.zero_add]
  | succ n ih =>
    rw [Nat.succ_add]
    simp only [Host.Core.run] at h ⊢
    cases hs : Sys2Proof.core.step s with
    | next u =>
      simp only [hs] at h ⊢
      exact ih h
    | fault f => simp [hs] at h
    | refused r => simp [hs] at h

section
variable {v v' v'' : Scene} {id : Nat} {a a' : Answer} {as as' : List Answer} {evs evs' : List Event}

/-- Runs chain where the answers to the first keep the turn. -/
theorem Scene.Leads.trans (h : v.Leads id as evs v') (ha : ∀ a ∈ as, a.agent = .sequencer id)
    (h' : v'.Leads id as' evs' v'') : v.Leads id (as ++ as') (evs ++ evs') v'' := by
  intro s rest hturn hscript hshows
  obtain ⟨t, hran, hshows⟩ := h s (as' ++ rest) hturn (by rw [hscript, List.append_assoc]) hshows
  obtain ⟨u, hran', hshows⟩ := h' t rest (hran.turn ha) hran.script hshows
  refine ⟨u, ⟨?_, hran'.script, ?_, hran.clocks.trans hran'.clocks, fun hall => hran'.turn fun x hx =>
    hall x (List.mem_append_right as hx)⟩, hshows⟩
  · rw [List.length_append, core_run_add _ hran.run, hran'.run]
  · rw [hran'.trace, hran.trace, List.append_assoc]

theorem Scene.Leads.cons (h : v.Leads id [a] evs v') (ha : a.agent = .sequencer id)
    (h' : v'.Leads id as evs' v'') : v.Leads id (a :: as) (evs ++ evs') v'' :=
  h.trans (by simpa using ha) h'

variable {pos next : Position} {b' : Block}

/-- One row outside CONFIGURE, by the state in which it leaves every state that shows `v`. -/
theorem Scene.Leads.row (hp : v.block.seq = some pos) (hpos : ∀ row, pos ≠ .configure row)
    (hrow : ∀ s, s.answer = a → s.Shows id v → ∃ u, rowStep pos id v.block s = .next u ∧ u.Shows id v' ∧
      u.trace = s.trace ++ evs) :
    v.Leads id [a] evs v' := by
  intro s rest hturn hscript hshows
  have ha : s.answer = a := by rw [State.answer, hscript]; rfl
  obtain ⟨u, hu, ⟨hblock, hengine, howner⟩, htrace⟩ := hrow s ha hshows
  have hstep : step s = .next u.nextAnswer := by
    rw [step_of_atRow ⟨hturn, hshows.block, hp⟩, hu]; rfl
  have htakes := rowStep_takes hu
  obtain ⟨-, -, -, -, -, -, hs, hd, -, -⟩ := htakes.sameElsewhere
  have hanswer : u.answer = a := by rw [← ha, State.answer, State.answer, hs, hd]
  refine ⟨u.nextAnswer, ⟨core_run_succ 0 hstep, ?_, htrace, htakes.sameClocks hpos, fun hall => ?_⟩,
    hblock, hengine, howner⟩
  · rw [State.nextAnswer_script, hs, hscript]; rfl
  · rw [State.nextAnswer_turn, hanswer]
    exact hall a (List.mem_singleton_self a)

/-- A row that writes its block alone. -/
theorem Scene.Leads.blockOnly (hp : v.block.seq = some pos)
    (he : b'.e = v.block.e)
    (hrow : ∀ s, s.Shows id v → rowStep pos id v.block s = .next (s.setBlock id b'))
    (hpos : ∀ row, pos ≠ .configure row := by simp) :
    v.Leads id [a] [] { v with block := b' } :=
  .row hp hpos fun s _ hs => ⟨_, hrow s hs, ⟨s.block?_setBlock_self id b', by simpa [he] using hs.engine,
    by simpa [he] using hs.owner⟩, by simp⟩

/-- A row that changes the owner of its block's engine. -/
theorem Scene.Leads.own {o : Option Nat} (hp : v.block.seq = some pos)
    (he : b'.e = v.block.e)
    (hrow : ∀ s, s.Shows id v → rowStep pos id v.block s = .next ((s.own v.block.e o).setBlock id b'))
    (hpos : ∀ row, pos ≠ .configure row := by simp) :
    v.Leads id [a] [.own v.block.e o] { v with block := b', owner := o } :=
  .row hp hpos fun s _ hs => ⟨_, hrow s hs, ⟨State.block?_setBlock_self _ id b', by simpa [he] using hs.engine,
    by simp [he]⟩, by simp⟩

/-- A row that calls the pin collaborator (R42, R178). -/
theorem Scene.Leads.call {op : CallOp} {o : CallOutcome} (hp : v.block.seq = some pos)
    (hop : ∀ s, State.callOutcome s op = s.answer.call) (ho : a.call = o)
    (hrow : ∀ s, s.answer.call = o → rowStep pos id v.block s = .next ((s.afterCall op).setBlock id b'))
    (he : b'.e = v.block.e) (hpos : ∀ row, pos ≠ .configure row := by simp) :
    v.Leads id [a] [.call op o] { v with block := b' } :=
  .row hp hpos fun s ha hs => ⟨_, hrow s (ha ▸ ho), ⟨State.block?_setBlock_self _ id b',
    by simpa [he] using hs.engine, by simpa [he] using hs.owner⟩, by simp [hop, ha, ho]⟩

/-- A row that writes a `CTRL` field. -/
theorem Scene.Leads.write {f : CtrlField} {x : Bool} (hp : v.block.seq = some pos)
    (hrow : ∀ s, rowStep pos id v.block s = .next (s.ctrlRow id v.block f x next))
    (hpos : ∀ row, pos ≠ .configure row := by simp) :
    v.Leads id [a] [.wrCtrl v.block.e f x]
      { v with block := v.block.goto next, engine := v.engine.wrCtrl f x } :=
  .row hp hpos fun s _ hs => ⟨_, hrow s, ⟨by simp, by simp [Block.goto, hs.engine],
    by simpa [Block.goto] using hs.owner⟩, by simp⟩

/-- A row that waits for a `CTRL` field. -/
theorem Scene.Leads.wait {f : CtrlField} {o : SyncOutcome} {onOk onTimeout : Block} (hp : v.block.seq = some pos)
    (hrow : ∀ s, rowStep pos id v.block s = .next (s.syncRow id v.block f onOk onTimeout)) (ho : a.sync = o)
    (hb : o.pick onOk onTimeout = b') (he : b'.e = v.block.e)
    (hpos : ∀ row, pos ≠ .configure row := by simp) :
    v.Leads id [a] [.sync v.block.e f o] { v with block := b', engine := v.engine.sync f a.engine o } :=
  .row hp hpos fun s ha hs => ⟨_, hrow s, ⟨by simp [ha, ho, hb], by simp [he, hs.engine, ha, ho],
    by simpa [he] using hs.owner⟩, by simp [ha, ho]⟩

/-- The two rows that switch a unit off (R115, R120). -/
theorem Scene.Leads.disable {f : CtrlField} {o : SyncOutcome} {mid onOk onTimeout : Block}
    (hp : v.block.seq = some pos)
    (hwrite : ∀ s, rowStep pos id v.block s = .next (s.ctrlRow id v.block f false next))
    (hmid : v.block.goto next = mid)
    (hwait : ∀ s, rowStep next id mid s = .next (s.syncRow id mid f onOk onTimeout))
    (ha : a.agent = .sequencer id) (ho : a'.sync = o) (hb : o.pick onOk onTimeout = b') (he : b'.e = v.block.e)
    (hpos : ∀ row, pos ≠ .configure row := by simp) (hnext : ∀ row, next ≠ .configure row := by simp) :
    v.Leads id [a, a'] [.wrCtrl v.block.e f false, .sync v.block.e f o]
      { v with block := b', engine := v.engine.disable f a' } := by
  subst ho hmid
  exact (Scene.Leads.write hp hwrite hpos).cons ha (.wait rfl hwait rfl hb he hnext)

end

/-! ## BEGIN -/

section
variable {b : Block} {en : Engine} {id : Nat} {a0 a1 a2 a3 a4 a5 a6 a7 a8 a9 a10 : Answer}

/-- B0 to B3 on a free engine, with both pins bound (R111, R112, R113). -/
theorem Scene.begin_acquire_leads (hp : b.seq = some (.begin .b0)) (hl : b.lifecycle = .uninit)
    (hok : ∀ a ∈ [a0, a1, a2, a3], a.okFor id) :
    (Scene.mk b en none).Leads id [a0, a1, a2, a3]
      [.own b.e (some id), .call (.pinMux b.clockPin (.clk b.e b.c)) .ok,
        .call (.pinMux b.dataPin (.data b.e b.m)) .ok]
      ⟨b.goto (.begin .b4), en, some id⟩ := by
  simp only [List.forall_mem_cons] at hok
  obtain ⟨⟨-, -, t0⟩, ⟨-, -, t1⟩, ⟨-, c2, t2⟩, ⟨-, c3, t3⟩, -⟩ := hok
  have h0 : (Scene.mk b en none).Leads id [a0] [] ⟨b.goto (.begin .b1), en, none⟩ :=
    .blockOnly hp rfl fun s _ => by simp [rowStep, beginRow, hl]
  have h1 : (Scene.mk (b.goto (.begin .b1)) en none).Leads id [a1] [.own b.e (some id)]
      ⟨b.goto (.begin .b2), en, some id⟩ :=
    .own rfl rfl fun s hs => congrArg _ (if_neg (not_not.mpr hs.owner))
  have h2 : (Scene.mk (b.goto (.begin .b2)) en (some id)).Leads id [a2]
      [.call (.pinMux b.clockPin (.clk b.e b.c)) .ok] ⟨b.goto (.begin .b3), en, some id⟩ :=
    .call rfl (fun _ => rfl) c2 (fun s hs => by
      simp only [rowStep, beginRow, State.callOutcome_pinMux, hs]; rfl) rfl
  have h3 : (Scene.mk (b.goto (.begin .b3)) en (some id)).Leads id [a3]
      [.call (.pinMux b.dataPin (.data b.e b.m)) .ok] ⟨b.goto (.begin .b4), en, some id⟩ :=
    .call rfl (fun _ => rfl) c3 (fun s hs => by
      simp only [rowStep, beginRow, State.callRow, State.callOutcome_pinMux, hs]; rfl) rfl
  exact h0.cons t0 <| h1.cons t1 <| h2.cons t2 h3

/-- B4 to B10 with every `SyncWait` ok (R114, R115, R116). -/
theorem Scene.begin_reset_leads {o : Option Nat} (hok : ∀ a ∈ [a4, a5, a6, a7, a8, a9, a10], a.okFor id) :
    ∃ en', en'.Quiet ∧ (Scene.mk (b.goto (.begin .b4)) en o).Leads id [a4, a5, a6, a7, a8, a9, a10]
      [.wrCtrl b.e .swrst true, .sync b.e .swrst .ok, .wrCtrl b.e (.seren b.m) false,
        .sync b.e (.seren b.m) .ok, .wrCtrl b.e (.cken b.c) false, .sync b.e (.cken b.c) .ok]
      ⟨b.commitBegin, en', o⟩ := by
  simp only [List.forall_mem_cons] at hok
  obtain ⟨⟨-, -, t4⟩, ⟨s5, -, t5⟩, ⟨-, -, t6⟩, ⟨s7, -, t7⟩, ⟨-, -, t8⟩, ⟨s9, -, t9⟩, -⟩ := hok
  have h4 : (Scene.mk (b.goto (.begin .b4)) en o).Leads id [a4] [.wrCtrl b.e .swrst true]
      ⟨b.goto (.begin .b5), en.wrCtrl .swrst true, o⟩ :=
    .write rfl fun _ => rfl
  have h5 : (Scene.mk (b.goto (.begin .b5)) (en.wrCtrl .swrst true) o).Leads id [a5]
      [.sync b.e .swrst .ok] ⟨b.goto (.begin .b6), Engine.resetTo a5.engine, o⟩ :=
    .wait rfl (fun _ => rfl) s5 rfl rfl
  have h67 : ∀ en, (Scene.mk (b.goto (.begin .b6)) en o).Leads id [a6, a7]
      [.wrCtrl b.e (.seren b.m) false, .sync b.e (.seren b.m) .ok]
      ⟨b.goto (.begin .b8), en.disable (.seren b.m) a7, o⟩ := fun _ =>
    .disable rfl (fun _ => rfl) rfl (fun _ => rfl) t6 s7 rfl rfl
  have h89 : ∀ en, (Scene.mk (b.goto (.begin .b8)) en o).Leads id [a8, a9]
      [.wrCtrl b.e (.cken b.c) false, .sync b.e (.cken b.c) .ok]
      ⟨b.goto (.begin .b10), en.disable (.cken b.c) a9, o⟩ := fun _ =>
    .disable rfl (fun _ => rfl) rfl (fun _ => rfl) t8 s9 rfl rfl
  have h10 : ∀ en, (Scene.mk (b.goto (.begin .b10)) en o).Leads id [a10] [] ⟨b.commitBegin, en, o⟩ := fun _ =>
    .blockOnly rfl rfl fun _ _ => rfl
  have hreset : (Engine.resetTo a5.engine).Quiet := ⟨Engine.resetTo_clean a5.engine, rfl⟩
  exact ⟨_, (hreset.disable (f := .seren b.m) (by simp) s7).disable (f := .cken b.c) (by simp) s9,
    h4.cons t4 <| h5.cons t5 <| (h67 _).trans (by simp [t6, t7]) <| (h89 _).trans (by simp [t8, t9]) (h10 _)⟩

end

/-- A BEGIN on a free engine whose every draw is `ok` (R110, R116, R117). -/
theorem Scene.begin_leads {b : Block} {en : Engine} {id : Nat} {a : Fin 11 → Answer}
    (hok : ∀ i, (a i).okFor id) (hp : b.seq = some (.begin .b0)) (hl : b.lifecycle = .uninit) :
    ∃ en', en'.Quiet ∧ (Scene.mk b en none).Leads id (List.ofFn a) (beginPattern id b)
      ⟨b.commitBegin, en', some id⟩ := by
  have hacquire : ∀ x ∈ [a 0, a 1, a 2, a 3], x.okFor id := by simp [hok]
  have hreset : ∀ x ∈ [a 4, a 5, a 6, a 7, a 8, a 9, a 10], x.okFor id := by simp [hok]
  obtain ⟨en', hquiet, hleads⟩ := Scene.begin_reset_leads (b := b) (en := en) (o := some id) hreset
  exact ⟨en', hquiet, (Scene.begin_acquire_leads hp hl hacquire).trans (fun x hx => (hacquire x hx).2.2) hleads⟩

theorem exists_ofFn_eq {α : Type} {l : List α} {n : Nat} (h : l.length = n) :
    ∃ a : Fin n → α, List.ofFn a = l := by
  subst h
  exact ⟨l.get, List.ofFn_get l⟩

/-- The first `m` of the answers that a script gives in advance, and what it leaves. -/
theorem State.okScript.cut {s : State} {id m n : Nat} (h : s.okScript id (m + n)) :
    ∃ a : Fin m → Answer, s.script = List.ofFn a ++ s.script.drop m ∧ (∀ i, (a i).okFor id) ∧
      ∀ t : State, t.script = s.script.drop m → t.okScript id n := by
  obtain ⟨hlen, hok⟩ := h
  rw [List.take_add] at hok
  obtain ⟨a, ha⟩ := exists_ofFn_eq (List.length_take_of_le (by omega : m ≤ s.script.length))
  refine ⟨a, by rw [ha, List.take_append_drop], fun i => hok _ (List.mem_append_left _ ?_),
    fun t ht => ⟨by rw [ht, List.length_drop]; omega, fun x hx => hok x (List.mem_append_right _ (ht ▸ hx))⟩⟩
  rw [← ha]
  exact List.mem_ofFn.mpr ⟨i, rfl⟩

/-- Settles O14: B0 to B10 as a chain of rows; an engine that is off has no active serializer. -/
theorem beginAllOkRun : Obligations.BeginAllOkRun := by
  rintro s id b ⟨hturn, hb, hp⟩ hl ho hscript
  obtain ⟨a, hs, hok, -⟩ := State.okScript.cut (m := 11) (n := 0) hscript
  obtain ⟨en', ⟨hclean, -⟩, hleads⟩ := Scene.begin_leads (en := s.engine b.e) hok hp hl
  obtain ⟨t, hran, hblock, hengine, howner⟩ := hleads s _ hturn hs (ho ▸ State.shows_self hb)
  change t.engine b.e = en' at hengine
  subst hengine
  exact ⟨t, hran.run, hran.trace, hblock, howner, hclean.ctrl, hclean.syncbusy, hclean.rxrdy,
    State.rxActive_of_disabled (by rw [hclean.ctrl]; rfl) b.m⟩

/-! ## END -/

/-- A block at a row of END, with END's error register at `code` (R120). -/
def Block.inEnd (b : Block) (code : ErrCode) (row : EndRow) : Block :=
  { b with work := { b.work with err := code }, seq := some (.end_ row) }

theorem Block.inEnd_pick (b : Block) (code : ErrCode) (row next : EndRow) (o : SyncOutcome) :
    o.pick ((b.inEnd code row).goto (.end_ next)) ((b.inEnd code row).noteTimeout.goto (.end_ next)) =
      b.inEnd (o.pick code .hwsync) next := by
  cases o <;> rfl

/-- The error that END records over its three `SyncWait`s (R120). -/
def endErr (oSer oClk oEn : SyncOutcome) : ErrCode :=
  oEn.pick (oClk.pick (oSer.pick .none .hwsync) .hwsync) .hwsync

theorem endErr_eq (oSer oClk oEn : SyncOutcome) : endErr oSer oClk oEn =
    if oSer = .timeout ∨ oClk = .timeout ∨ oEn = .timeout then .hwsync else .none := by
  cases oSer <;> cases oClk <;> cases oEn <;> rfl

/-- The events of an END from a state other than `UNINIT` with these outcomes (R122). -/
def endEvents (b : Block) (oSer oClk oEn : SyncOutcome) (oData oClock : CallOutcome) : List Event :=
  [.wrCtrl b.e (.seren b.m) false, .sync b.e (.seren b.m) oSer,
    .wrCtrl b.e (.cken b.c) false, .sync b.e (.cken b.c) oClk,
    .wrCtrl b.e .enable false, .sync b.e .enable oEn,
    .call (.pinRelease b.dataPin) oData, .call (.pinRelease b.clockPin) oClock, .own b.e none]

/-- The engine after END's three writes of 0, with the answers to their `SyncWait`s (R120). -/
def Block.endEngine (b : Block) (en : Engine) (aSer aClk aEn : Answer) : Engine :=
  ((en.disable (.seren b.m) aSer).disable (.cken b.c) aClk).disable .enable aEn

section
variable {b : Block} {en : Engine} {o : Option Nat} {id : Nat} {a0 a1 a2 a3 a4 a5 a6 a7 a8 a9 : Answer}

/-- E0 to E6 from a state other than `UNINIT` (R118, R120). -/
theorem Scene.end_disable_leads (hp : b.seq = some (.end_ .e0)) (hl : b.lifecycle ≠ .uninit)
    (hturn : ∀ a ∈ [a0, a1, a2, a3, a4, a5, a6], a.agent = .sequencer id) :
    (Scene.mk b en o).Leads id [a0, a1, a2, a3, a4, a5, a6]
      [.wrCtrl b.e (.seren b.m) false, .sync b.e (.seren b.m) a2.sync, .wrCtrl b.e (.cken b.c) false,
        .sync b.e (.cken b.c) a4.sync, .wrCtrl b.e .enable false, .sync b.e .enable a6.sync]
      ⟨b.inEnd (endErr a2.sync a4.sync a6.sync) .e7, b.endEngine en a2 a4 a6, o⟩ := by
  simp only [List.forall_mem_cons] at hturn
  obtain ⟨t0, t1, t2, t3, t4, t5, t6, -⟩ := hturn
  have h0 : (Scene.mk b en o).Leads id [a0] [] ⟨b.inEnd .none .e1, en, o⟩ :=
    .blockOnly hp rfl fun s _ => by simp only [rowStep, endRow, if_neg hl]; rfl
  have h12 : ∀ en code, (Scene.mk (b.inEnd code .e1) en o).Leads id [a1, a2]
      [.wrCtrl b.e (.seren b.m) false, .sync b.e (.seren b.m) a2.sync]
      ⟨b.inEnd (a2.sync.pick code .hwsync) .e3, en.disable (.seren b.m) a2, o⟩ := fun _ _ =>
    .disable rfl (fun _ => rfl) rfl (fun _ => rfl) t1 rfl (b.inEnd_pick ..) rfl
  have h34 : ∀ en code, (Scene.mk (b.inEnd code .e3) en o).Leads id [a3, a4]
      [.wrCtrl b.e (.cken b.c) false, .sync b.e (.cken b.c) a4.sync]
      ⟨b.inEnd (a4.sync.pick code .hwsync) .e5, en.disable (.cken b.c) a4, o⟩ := fun _ _ =>
    .disable rfl (fun _ => rfl) rfl (fun _ => rfl) t3 rfl (b.inEnd_pick ..) rfl
  have h56 : ∀ en code, (Scene.mk (b.inEnd code .e5) en o).Leads id [a5, a6]
      [.wrCtrl b.e .enable false, .sync b.e .enable a6.sync]
      ⟨b.inEnd (a6.sync.pick code .hwsync) .e7, en.disable .enable a6, o⟩ := fun _ _ =>
    .disable rfl (fun _ => rfl) rfl (fun _ => rfl) t5 rfl (b.inEnd_pick ..) rfl
  exact h0.cons t0 <| (h12 _ _).trans (by simp [t1, t2]) <| (h34 _ _).trans (by simp [t3, t4]) (h56 _ _)

/-- E7 to E9 (R121). -/
theorem Scene.end_release_leads (hp : b.seq = some (.end_ .e7)) (t7 : a7.agent = .sequencer id)
    (t8 : a8.agent = .sequencer id) :
    (Scene.mk b en o).Leads id [a7, a8, a9]
      [.call (.pinRelease b.dataPin) a7.call, .call (.pinRelease b.clockPin) a8.call, .own b.e none]
      ⟨b.commitEnd, en, none⟩ := by
  have h7 : (Scene.mk b en o).Leads id [a7] [.call (.pinRelease b.dataPin) a7.call]
      ⟨b.goto (.end_ .e8), en, o⟩ :=
    .call hp (fun _ => rfl) rfl (fun s _ => congrArg _ (s.callRow_self id _ _)) rfl
  have h8 : (Scene.mk (b.goto (.end_ .e8)) en o).Leads id [a8] [.call (.pinRelease b.clockPin) a8.call]
      ⟨b.goto (.end_ .e9), en, o⟩ :=
    .call rfl (fun _ => rfl) rfl (fun s _ => congrArg _ (s.callRow_self id _ _)) rfl
  have h9 : (Scene.mk (b.goto (.end_ .e9)) en o).Leads id [a9] [.own b.e none] ⟨b.commitEnd, en, none⟩ :=
    .own rfl rfl fun _ _ => rfl
  exact h7.cons t7 <| h8.cons t8 h9

/-- An END from a state other than `UNINIT`, whatever its draws (R118, R120, R121, R122). -/
theorem Scene.end_leads (hp : b.seq = some (.end_ .e0)) (hl : b.lifecycle ≠ .uninit)
    (hturn : ∀ a ∈ [a0, a1, a2, a3, a4, a5, a6, a7, a8], a.agent = .sequencer id) :
    (Scene.mk b en o).Leads id [a0, a1, a2, a3, a4, a5, a6, a7, a8, a9]
      (endEvents b a2.sync a4.sync a6.sync a7.call a8.call)
      ⟨(b.inEnd (endErr a2.sync a4.sync a6.sync) .e9).commitEnd, b.endEngine en a2 a4 a6, none⟩ := by
  have hdisable : ∀ a ∈ [a0, a1, a2, a3, a4, a5, a6], a.agent = .sequencer id := fun a ha =>
    hturn a (List.mem_append_left [a7, a8] ha)
  exact (Scene.end_disable_leads hp hl hdisable).trans hdisable
    (Scene.end_release_leads rfl (hturn a7 (by simp)) (hturn a8 (by simp)))

end

/-- Settles O17: E0 to E9 as a chain of rows; what one unit's wait made effective the later rows keep. -/
theorem endRunWhateverTheOutcomes : Obligations.EndRunWhateverTheOutcomes := by
  rintro s id b a0 a1 a2 a3 a4 a5 a6 a7 a8 a9 rest ⟨hturn, hb, hp⟩ hl hscript hturns
  obtain ⟨t, hran, hblock, hengine, howner⟩ :=
    Scene.end_leads (a9 := a9) hp hl hturns s rest hturn hscript (State.shows_self hb)
  change t.engine b.e = b.endEngine (s.engine b.e) a2 a4 a6 at hengine
  refine ⟨t, _, hran.run, hblock, rfl, rfl, rfl, rfl, endErr_eq .., howner, hran.clocks, ?_, ?_, ?_, hran.trace⟩ <;>
    rw [hengine, Block.endEngine]
  · intro h
    change CtrlFields.get _ (.seren b.m) = false
    rw [Engine.disable_ctrl_ne (f := .enable) _ _ (by simp) (by simp),
      Engine.disable_ctrl_ne (f := .cken b.c) _ _ (by simp) (by simp), Engine.disable_ctrl_self _ (by simp) h]
  · intro h
    change CtrlFields.get _ (.cken b.c) = false
    rw [Engine.disable_ctrl_ne (f := .enable) _ _ (by simp) (by simp), Engine.disable_ctrl_self _ (by simp) h]
  · exact Engine.disable_ctrl_self (f := .enable) _ (by simp)

/-- An END whose every draw is `ok`, on a quiet engine, which it leaves quiet (R122). -/
theorem Scene.end_ok_leads {b : Block} {en : Engine} {o : Option Nat} {id : Nat} {a : Fin 10 → Answer}
    (hok : ∀ i, (a i).okFor id) (hp : b.seq = some (.end_ .e0)) (hl : b.lifecycle ≠ .uninit) (hq : en.Quiet) :
    ∃ en', en'.Quiet ∧ (Scene.mk b en o).Leads id (List.ofFn a) (endPattern b)
      ⟨(b.inEnd .none .e9).commitEnd, en', none⟩ := by
  have hturn : ∀ x ∈ [a 0, a 1, a 2, a 3, a 4, a 5, a 6, a 7, a 8], x.agent = .sequencer id := by
    simp [fun i => (hok i).2.2]
  have h := Scene.end_leads (en := en) (o := o) (a9 := a 9) hp hl hturn
  rw [(hok 2).1, (hok 4).1, (hok 6).1, (hok 7).2.1, (hok 8).2.1] at h
  exact ⟨_, ((hq.disable (f := .seren b.m) (by simp) (hok 2).1).disable (f := .cken b.c) (by simp)
    (hok 4).1).disable (f := .enable) (by simp) (hok 6).1, h⟩

/-! ## Commands one after another -/

/-- From the load of the command word `wd` on, `n` steps with answers of `ok` end in `t` and make the events `evs`;
`left` more such answers are there. -/
structure State.OkRan (s t : State) (id n left : Nat) (wd : Word) (evs : List Event) : Prop where
  run : Host.Core.run Sys2Proof.core n (s.loadCommand wd) = .next t
  turn : t.turn = .sequencer id
  script : t.okScript id left
  trace : t.trace = s.trace ++ evs

/-- A command word written for the sequencer that has the turn starts that sequencer's block (log entry 9). -/
theorem State.loadCommand_of_turn {s : State} {id : Nat} {b : Block} (wd : Word) (hturn : s.turn = .sequencer id)
    (hb : s.block? id = some b) :
    s.loadCommand wd = { s.setBlock id (b.startCommand wd) with turn := .sequencer id } := by
  have hfetch : s.fetchId = id := by simp [State.fetchId, hturn]
  simp only [State.loadCommand, hfetch, hb]

/-- A command whose rows lead, for any answers of `ok`, to a scene with `P`, runs to one. -/
theorem State.OkRan.of_leads {v : Scene} {P : Scene → Prop} {s : State} {id n left : Nat} {wd : Word}
    {evs : List Event} (hshows : s.Shows id v) (hturn : s.turn = .sequencer id) (hscript : s.okScript id (n + left))
    (h : ∀ a : Fin n → Answer, (∀ i, (a i).okFor id) → ∃ v', P v' ∧
      (Scene.mk (v.block.startCommand wd) v.engine v.owner).Leads id (List.ofFn a) evs v') :
    ∃ t v', s.OkRan t id n left wd evs ∧ t.Shows id v' ∧ P v' := by
  have hload := State.loadCommand_of_turn wd hturn hshows.block
  obtain ⟨a, hs, hok, hcut⟩ := hscript.cut
  obtain ⟨v', hP, hleads⟩ := h a hok
  obtain ⟨t, hran, hshows'⟩ := hleads (s.loadCommand wd) (s.script.drop n) (by rw [hload]) (by rw [hload]; exact hs)
    (by rw [hload]; exact ⟨State.block?_setBlock_self _ _ _, hshows.engine, hshows.owner⟩)
  refine ⟨t, v', ⟨by simpa using hran.run, hran.turn fun x hx => ?_, hcut t hran.script,
    by rw [hran.trace, hload]; rfl⟩, hshows', hP⟩
  obtain ⟨i, rfl⟩ := List.mem_ofFn.mp hx
  exact (hok i).2.2

theorem Block.startCommand_encode_seq (b : Block) (i : Instr) :
    (b.startCommand (encode i)).seq = some (Position.first (.ok i)) := by
  rw [Block.startCommand_seq, decode_encode]

/-- The pins and the units that construction bound (R22). -/
structure Block.SameBinding (b b' : Block) : Prop where
  clockPin : b'.clockPin = b.clockPin
  dataPin : b'.dataPin = b.dataPin
  e : b'.e = b.e
  c : b'.c = b.c
  m : b'.m = b.m

theorem Block.SameBinding.trans {b b' b'' : Block} (h : b.SameBinding b') (h' : b'.SameBinding b'') :
    b.SameBinding b'' :=
  ⟨h'.clockPin.trans h.clockPin, h'.dataPin.trans h.dataPin, h'.e.trans h.e, h'.c.trans h.c, h'.m.trans h.m⟩

theorem Block.SameBinding.beginPattern {b b' : Block} (h : b.SameBinding b') (id : Nat) :
    beginPattern id b' = beginPattern id b := by
  simp only [Machine.beginPattern, h.clockPin, h.dataPin, h.e, h.c, h.m]

theorem Block.SameBinding.endPattern {b b' : Block} (h : b.SameBinding b') : endPattern b' = endPattern b := by
  simp only [Machine.endPattern, h.clockPin, h.dataPin, h.e, h.c, h.m]

theorem Block.startCommand_sameBinding (b : Block) (wd : Word) : b.SameBinding (b.startCommand wd) :=
  ⟨rfl, rfl, rfl, rfl, rfl⟩

theorem Block.commitBegin_sameBinding (b : Block) : b.SameBinding b.commitBegin := ⟨rfl, rfl, rfl, rfl, rfl⟩

theorem Block.commitEnd_sameBinding (b : Block) (code : ErrCode) (row : EndRow) :
    b.SameBinding (b.inEnd code row).commitEnd := ⟨rfl, rfl, rfl, rfl, rfl⟩

section
variable {t : State} {id : Nat} {v : Scene} {b : Block}

theorem State.Shows.engine_eq (h : t.Shows id v) (hb : b.SameBinding v.block) : t.engine b.e = v.engine := by
  rw [← hb.e, h.engine]

theorem State.Shows.owner_eq (h : t.Shows id v) (hb : b.SameBinding v.block) : t.owner b.e = v.owner := by
  rw [← hb.e, h.owner]

end

/-- Where a command that took the scene `v` and finished `E_NONE` leaves it: at lifecycle `l`, with the engine quiet
and owned by `o`. -/
structure Scene.Completes (v v' : Scene) (l : Lifecycle) (o : Option Nat) : Prop where
  binding : v.block.SameBinding v'.block
  lifecycle : v'.block.lifecycle = l
  errCode : v'.block.errCode = .none
  result : v'.block.result = true
  owner : v'.owner = o
  quiet : v'.engine.Quiet

section
variable {s : State} {id left : Nat} {v : Scene}

/-- A BEGIN command on a free engine (R116, R117). -/
theorem State.Shows.begin_command (hshows : s.Shows id v) (hturn : s.turn = .sequencer id)
    (hl : v.block.lifecycle = .uninit) (ho : v.owner = none) (hscript : s.okScript id (11 + left)) :
    ∃ t v', s.OkRan t id 11 left (encode .begin) (beginPattern id v.block) ∧ t.Shows id v' ∧
      v.Completes v' .idle (some id) := by
  have hstart := v.block.startCommand_sameBinding (encode .begin)
  refine State.OkRan.of_leads hshows hturn hscript fun a hok => ?_
  obtain ⟨en, hquiet, hleads⟩ :=
    Scene.begin_leads (en := v.engine) hok (v.block.startCommand_encode_seq .begin) hl
  rw [hstart.beginPattern] at hleads
  refine ⟨_, ?_, ho ▸ hleads⟩
  exact ⟨hstart.trans (Block.commitBegin_sameBinding _), rfl, rfl, rfl, rfl, hquiet⟩

/-- An END command on a quiet engine (R121, R122). -/
theorem State.Shows.end_command (hshows : s.Shows id v) (hturn : s.turn = .sequencer id)
    (hl : v.block.lifecycle ≠ .uninit) (hq : v.engine.Quiet) (hscript : s.okScript id (10 + left)) :
    ∃ t v', s.OkRan t id 10 left (encode .end_) (endPattern v.block) ∧ t.Shows id v' ∧
      v.Completes v' .uninit none := by
  have hstart := v.block.startCommand_sameBinding (encode .end_)
  refine State.OkRan.of_leads hshows hturn hscript fun a hok => ?_
  obtain ⟨en, hquiet, hleads⟩ :=
    Scene.end_ok_leads (o := v.owner) hok (v.block.startCommand_encode_seq .end_) hl hq
  rw [hstart.endPattern] at hleads
  refine ⟨_, ?_, hleads⟩
  exact ⟨hstart.trans (Block.commitEnd_sameBinding _ _ _), rfl, rfl, rfl, rfl, hquiet⟩

end

/-- Settles O59: BEGIN, END and BEGIN, each from the scene that the command before it left. -/
theorem reacquireCycle : Obligations.ReacquireCycle := by
  intro s id b hb hl ho hturn hscript
  obtain ⟨t1, v1, hrun1, hshows1, hend1⟩ :=
    (State.shows_self hb).begin_command (left := 21) hturn hl ho hscript
  obtain ⟨t2, v2, hrun2, hshows2, hend2⟩ :=
    hshows1.end_command (left := 11) hrun1.turn (by simp [hend1.lifecycle]) hend1.quiet hrun1.script
  obtain ⟨t3, v3, hrun3, hshows3, hend3⟩ :=
    hshows2.begin_command (left := 0) hrun2.turn hend2.lifecycle hend2.owner hrun2.script
  have hbind1 : b.SameBinding v1.block := hend1.binding
  have hbind2 := hbind1.trans hend2.binding
  have hbind3 := hbind2.trans hend3.binding
  have hctrl1 : (t1.engine b.e).ctrl = CtrlFields.all false := by
    rw [hshows1.engine_eq hbind1, hend1.quiet.clean.ctrl]
  have hctrl2 : (t2.engine b.e).ctrl = CtrlFields.all false := by
    rw [hshows2.engine_eq hbind2, hend2.quiet.clean.ctrl]
  have hctrl3 : (t3.engine b.e).ctrl = CtrlFields.all false := by
    rw [hshows3.engine_eq hbind3, hend3.quiet.clean.ctrl]
  refine ⟨t1, t2, t3, _, _, _, hrun1.run, hrun2.run, hrun3.run, ?_, hshows1.block, hshows2.block, hshows3.block,
    hend1.lifecycle, hend2.lifecycle, hend3.lifecycle, hend3.errCode, hend3.result,
    (hshows1.owner_eq hbind1).trans hend1.owner, (hshows2.owner_eq hbind2).trans hend2.owner,
    (hshows3.owner_eq hbind3).trans hend3.owner, hctrl2, hctrl3, hctrl3.trans hctrl1.symm⟩
  rw [hrun3.trace, hrun2.trace, hrun1.trace, hbind1.endPattern, hbind2.beginPattern]

end Sys2Proof.Machine
end

section
/-! The rows of BEGIN, END and GET_SER_INDEX one by one (R110 to R123). -/

namespace Sys2Proof.Machine

/-! ## What BEGIN's and END's writes and waits do -/

section
variable {s : State} {id : Nat} {b : Block} {f : CtrlField}

/-- A row that writes a `CTRL` field leaves every effective value, and every other field's busy bit (R33, R45). -/
theorem State.ctrlRow_spec (v : Bool) (next : Position) :
    (s.ctrlRow id b f v next).block? id = some (b.goto next) ∧
    ((s.ctrlRow id b f v next).engine b.e).ctrl = (s.engine b.e).ctrl ∧
    ((s.ctrlRow id b f v next).engine b.e).syncbusy.get f = true ∧
    (∀ g, g ≠ f → ((s.ctrlRow id b f v next).engine b.e).syncbusy.get g = (s.engine b.e).syncbusy.get g) ∧
    ((s.ctrlRow id b f v next).engine b.e).pending.get f = some v ∧
    (s.ctrlRow id b f v next).trace = s.trace ++ [.wrCtrl b.e f v] := by
  rw [State.ctrlRow_engine]
  exact ⟨by simp, rfl, by simp, fun g hg => by simp [CtrlFields.get_set, hg], by simp, by simp⟩

/-- A row that waits for another field than `SWRST`: on ok the pending write is effective and its busy bit 0, and
whatever the outcome no other field changes (R46). -/
theorem State.syncRow_spec (hf : f ≠ .swrst) (v : Bool) (onOk onTimeout : Block) :
    (s.syncRow id b f onOk onTimeout).trace = s.trace ++ [.sync b.e f s.answer.sync] ∧
    (∀ g, g ≠ f →
      ((s.syncRow id b f onOk onTimeout).engine b.e).ctrl.get g = (s.engine b.e).ctrl.get g ∧
      ((s.syncRow id b f onOk onTimeout).engine b.e).syncbusy.get g = (s.engine b.e).syncbusy.get g) ∧
    (s.answer.sync = .ok → (s.syncRow id b f onOk onTimeout).block? id = some onOk ∧
      ((s.syncRow id b f onOk onTimeout).engine b.e).syncbusy.get f = false ∧
      ((s.engine b.e).pending.get f = some v →
        ((s.syncRow id b f onOk onTimeout).engine b.e).ctrl.get f = v)) ∧
    (s.answer.sync = .timeout → (s.syncRow id b f onOk onTimeout).block? id = some onTimeout) := by
  rw [State.syncRow_engine, State.syncRow_trace, State.syncRow_block?]
  refine ⟨rfl, ((s.engine b.e).sync_frame s.answer.engine s.answer.sync hf).2.2, fun h => ?_, fun h => by simp [h]⟩
  rw [h, Engine.sync_ok, Engine.syncOk_of_ne _ _ _ hf]
  exact ⟨rfl, by simp, fun hp => by simp [hp]⟩

end

/-! ## BEGIN -/

/-- At a row of BEGIN, BEGIN is that row. -/
theorem exec_begin_row {s : State} {id : Nat} {b : Block} {row : BeginRow} (h : s.atRow id b (.begin row)) :
    exec .begin s = .next (beginRow row id b s) := exec_row h rfl

/-- Settles O10, by the two outcomes of either check. -/
theorem beginChecksStateAndOwner : Obligations.BeginChecksStateAndOwner := by
  intro s id b
  refine ⟨fun hrow => ?_, fun hrow => ?_⟩ <;> rw [exec_begin_row hrow] <;> refine ⟨fun h => ?_, fun h => ?_⟩
  · rw [beginRow, if_pos h]; rfl
  · rw [beginRow, if_neg (not_not.mpr h)]; rfl
  · rw [beginRow, if_pos h]; rfl
  · rw [beginRow, if_neg (not_not.mpr h)]
    exact ⟨_, rfl, State.block?_setBlock_self _ _ _, State.owner_setOwner_self _ _ _, rfl, rfl⟩

/-- Settles O11, row by row and by the outcome of the row's call. -/
theorem beginBindsPinsOrUndoes : Obligations.BeginBindsPinsOrUndoes := by
  intro s id b
  refine ⟨fun hrow => ⟨_, exec_begin_row hrow, ?_⟩, fun hrow => ⟨_, exec_begin_row hrow, ?_⟩,
    fun hrow => ⟨_, exec_begin_row hrow, ?_⟩⟩
  · refine ⟨fun h => ?_, fun h => ?_⟩ <;> simp only [beginRow, State.callOutcome_pinMux, h] <;>
      exact ⟨State.block?_setBlock_self _ _ _, by simp, by simp [h]⟩
  · simp only [beginRow, State.callRow, State.callOutcome_pinMux]
    refine ⟨?_, by simp, by simp⟩
    cases s.answer.call <;> exact State.block?_setBlock_self _ _ _
  · exact ⟨State.block?_setBlock_self _ _ _, by simp [beginRow], by simp [beginRow]⟩

/-- Settles O12: B4 as any `CTRL` write; B5 by the outcome of the reset. -/
theorem beginResetsEngine : Obligations.BeginResetsEngine := by
  intro s id b
  refine ⟨fun hrow => ⟨_, exec_begin_row hrow, ?_⟩, fun hrow => ⟨_, exec_begin_row hrow, rfl,
    (rowStep_takes (pos := .begin .b5) rfl).sameClocks (by simp), rfl, fun h => ?_, fun h => ?_⟩⟩
  · rw [beginRow, State.ctrlRow_engine, State.ctrlRow_block?, State.ctrlRow_trace]
    exact ⟨rfl, rfl, rfl, rfl, rfl⟩
  · simp only [beginRow, State.syncRow_engine, State.syncRow_block?, h]
    exact ⟨rfl, fun f => by simp [Engine.resetTo], rfl⟩
  · simp only [beginRow, State.syncRow_block?, h]
    rfl

/-- Settles O13: both writes and both waits as any; B10 is the commit. -/
theorem beginDisablesUnitsAndCommits : Obligations.BeginDisablesUnitsAndCommits := by
  intro s id b f wrRow syncRow next hrows
  refine ⟨fun hrow => ⟨_, exec_begin_row hrow, ?_⟩, fun hrow => ⟨_, exec_begin_row hrow, ?_⟩,
    fun hrow => exec_begin_row hrow⟩ <;>
    rcases hrows with ⟨rfl, rfl, rfl, rfl⟩ | ⟨rfl, rfl, rfl, rfl⟩
  · exact State.ctrlRow_spec false (.begin .b7)
  · exact State.ctrlRow_spec false (.begin .b9)
  · exact State.syncRow_spec (by simp) false (b.goto (.begin .b8)) b.fatal
  · exact State.syncRow_spec (by simp) false (b.goto (.begin .b10)) b.fatal

/-! ## END and GET_SER_INDEX -/

/-- At a row of END, END is that row. -/
theorem exec_end_row {s : State} {id : Nat} {b : Block} {row : EndRow} (h : s.atRow id b (.end_ row)) :
    exec .end_ s = .next (endRow row id b s) := exec_row h rfl

/-- Settles O15: E0 by its state check, E7 and E8 by their calls, E9 as the commit. -/
theorem endStartsAndReleases : Obligations.EndStartsAndReleases := by
  intro s id b
  refine ⟨fun hrow => ?_, fun hrow => ⟨_, exec_end_row hrow, ?_⟩, fun hrow => ⟨_, exec_end_row hrow, ?_⟩,
    fun hrow => ⟨_, exec_end_row hrow, ?_⟩⟩
  · rw [exec_end_row hrow]
    refine ⟨fun h => ?_, fun h => ?_⟩
    · rw [endRow, if_pos h]; rfl
    · rw [endRow, if_neg h]; rfl
  · refine ⟨?_, (rowStep_takes (pos := .end_ .e7) rfl).sameClocks (by simp), ?_⟩ <;>
      simp [endRow, State.callRow_self, Block.goto]
  · refine ⟨?_, (rowStep_takes (pos := .end_ .e8) rfl).sameClocks (by simp), ?_⟩ <;>
      simp [endRow, State.callRow_self, Block.goto]
  · exact ⟨State.block?_setBlock_self _ _ _, State.owner_setOwner_self _ _ _, rfl,
      (rowStep_takes (pos := .end_ .e9) rfl).sameClocks (by simp), rfl⟩

/-- Settles O16: the three writes and the three waits as any. -/
theorem endDisablesAndGoesOn : Obligations.EndDisablesAndGoesOn := by
  intro s id b f wrRow syncRow next hrows
  refine ⟨fun hrow => ⟨_, exec_end_row hrow, ?_⟩, fun hrow => ⟨_, exec_end_row hrow, ?_⟩⟩ <;>
    rcases hrows with ⟨rfl, rfl, rfl, rfl⟩ | ⟨rfl, rfl, rfl, rfl⟩ | ⟨rfl, rfl, rfl, rfl⟩
  · exact State.ctrlRow_spec false (.end_ .e2)
  · exact State.ctrlRow_spec false (.end_ .e4)
  · exact State.ctrlRow_spec false (.end_ .e6)
  · exact State.syncRow_spec (by simp) false (b.goto (.end_ .e3)) (b.noteTimeout.goto (.end_ .e3))
  · exact State.syncRow_spec (by simp) false (b.goto (.end_ .e5)) (b.noteTimeout.goto (.end_ .e5))
  · exact State.syncRow_spec (by simp) false (b.goto (.end_ .e7)) (b.noteTimeout.goto (.end_ .e7))

/-- Settles O18, by the two serializer indices. -/
theorem getSerIndexReturnsIndex : Obligations.GetSerIndexReturnsIndex := by
  intro s id b hrow
  have hindex : BitVec.ofNat 32 b.m.toNat = if b.m = .u0 then 0 else 1 := by cases b.m <;> rfl
  rw [exec_row hrow rfl, ← hindex]
  rfl

end Sys2Proof.Machine
end

section
/-! CONFIGURE's disable phase (R130, R142, R143): what it has switched off stays off until the enable phase
writes it on again. -/

namespace Sys2Proof.Machine

/-! ## What is off at a row -/

/-- The fields that are effectively 0 at a row of CONFIGURE: the disable phase has ended their wait, and the enable
phase has not (R130, R134). -/
def Block.offAt (b : Block) (row : ConfigureRow) (f : CtrlField) : Prop :=
  (f = .seren b.m ∧ 4 ≤ row.index ∧ row.index ≤ 18) ∨
    (f = .cken b.c ∧ 6 ≤ row.index ∧ row.index ≤ 16) ∨ (f = .enable ∧ 8 ≤ row.index ∧ row.index ≤ 14)

theorem Block.offAt_congr {b b' : Block} (hc : b'.c = b.c) (hm : b'.m = b.m) (row : ConfigureRow)
    (f : CtrlField) : b'.offAt row f ↔ b.offAt row f := by
  unfold Block.offAt
  rw [hc, hm]

/-- What the disable-phase invariant says of one block. -/
def State.OffRight (s : State) (b : Block) : Prop :=
  ∀ row f, b.seq = some (.configure row) → b.offAt row f → (s.engine b.e).ctrl.get f = false

theorem State.disableInv_iff (s : State) :
    s.DisableInv ↔ ∀ id b, s.block? id = some b → s.OffRight b := by
  refine ⟨fun h id b hb row f hp hf => ?_, fun h id b row hb hp =>
    ⟨fun h1 h2 => ?_, fun h1 h2 => ?_, fun h1 h2 => ?_⟩⟩
  · obtain ⟨hser, hclk, hen⟩ := h id b row hb hp
    rcases hf with ⟨rfl, h1, h2⟩ | ⟨rfl, h1, h2⟩ | ⟨rfl, h1, h2⟩
    · exact hser h1 h2
    · exact hclk h1 h2
    · exact hen h1 h2
  · exact h id b hb row (.seren b.m) hp (.inl ⟨rfl, h1, h2⟩)
  · exact h id b hb row (.cken b.c) hp (.inr (.inl ⟨rfl, h1, h2⟩))
  · exact h id b hb row .enable hp (.inr (.inr ⟨rfl, h1, h2⟩))

/-- A block at a row where something is off is past C0's check, so it has its engine (R124, R128). -/
theorem Block.holds_of_offAt {p : Params} {b : Block} {row : ConfigureRow} {f : CtrlField}
    (hok : b.rowOk p (.configure row) = true) (hf : b.offAt row f) : b.holdsItsEngine := by
  refine .inl (Block.rowOk_configure_ne ?_ hok)
  rintro rfl
  simp [Block.offAt, ConfigureRow.index] at hf

/-! ## How a row reaches the next -/

theorem ConfigureRow.index_successor {row next : ConfigureRow}
    (hn : Position.configure next ∈ (Position.configure row).successors) : next.index = row.index + 1 := by
  cases row <;> simp [Position.successors] at hn <;> subst hn <;> rfl

/-- What is off at the next row was off at this one, which does not wait for it; or this row is the wait for its
write of 0. -/
theorem Block.offAt_of_successor {b : Block} {row next : ConfigureRow} {f : CtrlField}
    (hn : Position.configure next ∈ (Position.configure row).successors) (hf : b.offAt next f) :
    b.pendingAt (.configure row) = some (f, false) ∨
      b.offAt row f ∧ b.effectAt (.configure row) ≠ .sync f := by
  have hidx := ConfigureRow.index_successor hn
  unfold Block.offAt at hf ⊢
  rw [hidx] at hf
  rcases hf with ⟨rfl, h1, h2⟩ | ⟨rfl, h1, h2⟩ | ⟨rfl, h1, h2⟩
  · cases row with
    | c3 => exact .inl rfl
    | _ => simp [ConfigureRow.index, Block.effectAt] at h1 h2 ⊢
  · cases row with
    | c5 => exact .inl rfl
    | _ => simp [ConfigureRow.index, Block.effectAt] at h1 h2 ⊢
  · cases row with
    | c7 => exact .inl rfl
    | _ => simp [ConfigureRow.index, Block.effectAt] at h1 h2 ⊢

/-- A row that leaves its block in CONFIGURE holds there, or goes on from the row before. -/
theorem rowBlock_configure_from {s : State} {b : Block} {pos : Position} {row : ConfigureRow}
    (hp : b.seq = some pos) (hrow : (rowBlock s b pos).seq = some (.configure row)) :
    (pos = .configure row ∧ pos.mayHold = true) ∨
      ∃ row', pos = .configure row' ∧ Position.configure row ∈ pos.successors := by
  have hmoves := rowBlock_moves s b pos
  generalize rowBlock s b pos = b' at hmoves hrow
  cases hmoves with
  | hold hh => rw [hp] at hrow; cases hrow; exact .inl ⟨rfl, hh⟩
  | goto next w hn _ =>
    cases hrow
    obtain ⟨row', hpos, -⟩ := Position.configure_of_successor hn
    exact .inr ⟨row', hpos, hn⟩
  | _ => cases hrow

/-- CONFIGURE goes on from a wait only where it was ok (R136). -/
theorem rowBlock_sync_ok {s : State} {b : Block} {row : ConfigureRow} {f : CtrlField}
    (hef : b.effectAt (.configure row) = .sync f) (hn : (rowBlock s b (.configure row)).seq ≠ none) :
    s.answer.sync = .ok := by
  cases hs : s.answer.sync with
  | ok => rfl
  | timeout => cases row <;> cases hef <;> simp [rowBlock, hs] at hn

/-- A row that can hold waits for nothing. -/
theorem Block.effectAt_ne_sync_of_mayHold {b : Block} {pos : Position} (h : pos.mayHold = true) (f : CtrlField) :
    b.effectAt pos ≠ .sync f := by
  cases pos with
  | configure row => cases row <;> cases h <;> nofun
  | read row => cases row <;> nofun
  | readBuf row => cases row <;> nofun
  | _ => cases h

theorem Block.effectAt_configure_ne_reset (b : Block) (row : ConfigureRow) :
    b.effectAt (.configure row) ≠ .sync .swrst := fun hef => by
  cases Block.effectAt_eq_onlyAt hef

/-- Only a wait for the field, or an engine reset, changes its effective value (R33, R46). -/
theorem Effect.holds.ctrl_get {s : State} {b : Block} {en : Engine} {ef : Effect} {f : CtrlField}
    (h : ef.holds s b en) (hr : ef ≠ .sync .swrst) (hf : ef ≠ .sync f) :
    en.ctrl.get f = (s.engine b.e).ctrl.get f := by
  cases ef with
  | wr g v => cases h; rfl
  | sync g =>
    cases h
    exact (((s.engine b.e).sync_frame s.answer.engine s.answer.sync fun hg => hr (by rw [hg])).2.2 f
      fun hg => hf (by rw [hg])).1
  | none | clk | fmt | clr => rw [(h.sameControl (by simp) (by simp)).ctrl]

/-- An ok wait makes the pending value effective (R46). -/
theorem Engine.syncOk_ctrl_self {en : Engine} {f : CtrlField} {v : Bool} (hf : f ≠ .swrst)
    (hp : en.pending.get f = some v) (d : Engine) : (en.syncOk f d).ctrl.get f = v := by
  rw [Engine.syncOk_of_ne _ _ _ hf]
  simp [hp]

/-! ## The invariant is kept -/

/-- A row leaves its own block with everything off that must be. -/
theorem State.OffRight.row {s u : State} {id : Nat} {b : Block} {pos : Position} (h : s.OffRight b)
    (hw : s.WaitsRight b) (hb : s.block? id = some b) (hp : b.seq = some pos)
    (hu : rowStep pos id b s = .next u) : u.OffRight (rowBlock s b pos) := by
  intro row f hrow hf
  obtain ⟨he, hc, hm, -⟩ := rowBlock_binding s b pos
  obtain ⟨hen, -⟩ := rowStep_engine hb hu
  rw [Block.offAt_congr hc hm] at hf
  rw [he]
  rcases rowBlock_configure_from hp hrow with ⟨rfl, hh⟩ | ⟨row', rfl, hn⟩
  · rw [hen.ctrl_get (Block.effectAt_configure_ne_reset b row) (Block.effectAt_ne_sync_of_mayHold hh f)]
    exact h row f hp hf
  · rcases Block.offAt_of_successor hn hf with hpend | ⟨hf', hne⟩
    · have hef := (b.effectAt_sync_iff _ f).mpr ⟨false, hpend⟩
      have hnr : f ≠ .swrst := by
        rintro rfl
        exact Block.effectAt_configure_ne_reset b row' hef
      have hpending : (s.engine b.e).pending.get f = some false := by
        rw [(hw _ f false hp hpend).1, CtrlFields.get_set_self]
      rw [hef] at hen
      rw [show u.engine b.e = (s.engine b.e).sync f s.answer.engine s.answer.sync from hen,
        rowBlock_sync_ok hef (by simp [hrow])]
      exact Engine.syncOk_ctrl_self hnr hpending _
    · rw [hen.ctrl_get (Block.effectAt_configure_ne_reset b row') hne]
      exact h row' f hp hf'

/-- A row of any block keeps the disable phase's result: the engine is its own block's alone (R41, R124). -/
theorem State.DisableInv.row {s u : State} {id : Nat} {b : Block} {pos : Position} (h : s.DisableInv)
    (ho : s.OwnershipInv) (hs : s.SyncInv) (hb : s.block? id = some b) (hp : b.seq = some pos)
    (hu : rowStep pos id b s = .next u) : u.DisableInv := by
  rw [State.disableInv_iff] at h ⊢
  intro j c hc
  rw [rowStep_block? hb hu] at hc
  split at hc
  · cases hc
    exact (h id b hb).row (hs.waitsRight hb) hb hp hu
  · next hj =>
    intro row f hrow hf
    obtain ⟨hsame, -⟩ := ho.engine_of_other hb hp hu hc hj
      (Block.holds_of_offAt ((ho.block hc).rowOk _ hrow) hf)
    rw [hsame.ctrl]
    exact h j c hc row f hrow hf

/-- A command that has just started has switched nothing off. -/
theorem Block.not_offAt_first {b : Block} {d : Except DecodeError Instr} {row : ConfigureRow} {f : CtrlField}
    (h : Position.first d = .configure row) : ¬ b.offAt row f := by
  have hrow : row = .c0 := by
    rcases d with _ | i
    · cases h
    · cases i <;> cases h; rfl
  simp [hrow, Block.offAt, ConfigureRow.index]

theorem Block.PortWritten.offRight {s : State} {b b' : Block} (hw : b.PortWritten b') (h : s.OffRight b) :
    s.OffRight b' := by
  intro row f hrow hf
  rcases hw.seq with ⟨hs, -⟩ | ⟨-, d, hs⟩
  · rw [Block.offAt_congr hw.c hw.m] at hf
    rw [hw.e]
    exact h row f (hs ▸ hrow) hf
  · rw [hs] at hrow
    exact absurd hf (Block.not_offAt_first (Option.some.inj hrow))

/-- The host writes no engine register and moves no block past a first row. -/
theorem State.DisableInv.host {s u : State} (h : s.DisableInv) (hu : hostStep s = .next u) : u.DisableInv := by
  rw [State.disableInv_iff] at h ⊢
  intro j c hc
  rcases hostStep_cases hu with ⟨_, _, _, rfl⟩ | ⟨rest, port, b, b', hb, hw, rfl⟩ | ⟨rest, cp, dp, k, rfl⟩
  · exact h j c hc
  · rw [State.block?_setBlock] at hc
    split at hc
    · cases hc
      exact hw.offRight (h port b hb)
    · exact h j c hc
  · rw [State.block?_construct] at hc
    split at hc
    · cases hc
      exact fun row f hrow => by cases hrow
    · exact h j c hc

theorem State.DisableInv.producer {s : State} (h : s.DisableInv) (e : Nat) (m : UnitIx) :
    (producerStep e m s).DisableInv := by
  rw [State.disableInv_iff] at h ⊢
  intro j c hc row f hrow hf
  rw [(producerStep_engineOnly s e m).block?] at hc
  rw [(producerStep_sameControl s e m c.e).ctrl]
  exact h j c hc row f hrow hf

/-- Settles O47: each agent's step keeps what the disable phase switched off; in a block's own rows by the row
before, and in another block's because the engine has one owner. -/
theorem disablePhaseKept : Obligations.DisablePhaseKept := by
  intro s t ho hs h ht
  obtain ⟨u, rfl, hcases⟩ := step_cases ht
  show u.DisableInv
  rcases hcases with ⟨-, hu⟩ | ⟨id, b, pos, -, hb, hp, hu⟩ | ⟨-, rfl⟩ | ⟨e, m, -, rfl⟩
  · exact h.host hu
  · exact h.row ho hs hb hp hu
  · exact h
  · exact h.producer e m

end Sys2Proof.Machine
end

section
/-! The faults of a step, and what the invariants say of them (R142, R143, R161). -/

namespace Sys2Proof.Machine

/-! ## Where a step faults -/

/-- A step that faults is a host primitive, or a row of the block whose sequencer has the turn (R14). -/
theorem step_fault {s : State} {x : Fault} (h : step s = .fault x) :
    hostStep s = .fault x ∨ ∃ id b pos, s.atRow id b pos ∧ rowStep pos id b s = .fault x := by
  obtain ⟨henabled, hproducer⟩ := enabled_of_fault h
  cases hturn : s.turn with
  | host =>
    rw [step_of_host hturn] at h
    exact .inl (advance_fault h)
  | producer e m => exact absurd hturn (hproducer e m)
  | sequencer id =>
    rw [hturn] at henabled
    simp only [State.enabled, State.sequencerEnabled] at henabled
    cases hb : s.block? id with
    | none => simp [hb] at henabled
    | some b =>
      cases hp : b.seq with
      | none => simp [hb, hp] at henabled
      | some pos =>
        have hrow : s.atRow id b pos := ⟨hturn, hb, hp⟩
        rw [step_of_atRow hrow] at h
        exact .inr ⟨id, b, pos, hrow, advance_fault h⟩

/-- A port write faults by its window, its offset or a busy block (R53, R55, R79). -/
theorem State.portWrite_fault {s : State} {port width : Nat} {off : BitVec 6} {v : Word} {x : Fault}
    (h : s.portWrite port width off v = .fault x) :
    x ∈ [.noWindow, .portReserved, .portAccess, .concurrent] := by
  unfold State.portWrite at h
  split at h
  · cases h; simp
  · split at h
    · cases h; simp
    · cases h; simp
    · split at h <;> cases h
      simp

theorem State.portRead_fault {s : State} {port width : Nat} {off : BitVec 6} {x : Fault}
    (h : s.portRead port width off = .fault x) : x ∈ [.noWindow, .portReserved, .portAccess] := by
  unfold State.portRead at h
  split at h
  · cases h; simp
  · split at h <;> cases h <;> simp

theorem State.waitStep_fault {s : State} {port : Nat} {rest : List HostOp} {x : Fault}
    (h : s.waitStep port rest = .fault x) : x = .noWindow := by
  unfold State.waitStep at h
  split at h
  · cases h; rfl
  · split at h <;> cases h

theorem State.hostLoad_fault {s : State} {n a : Nat} {v : Word} {x : Fault} (h : s.hostLoad n a v = .fault x) :
    x = .hostMemory := by
  unfold State.hostLoad at h
  split at h <;> cases h
  rfl

theorem State.hostStore_fault {s : State} {n a : Nat} {m : Memory} {x : Fault}
    (h : s.hostStore n a m = .fault x) : x = .hostMemory := by
  unfold State.hostStore at h
  split at h <;> cases h
  rfl

/-- The faults of the host's side: a host primitive raises no other (R14, R170). -/
theorem hostStep_fault {s : State} {x : Fault} (h : hostStep s = .fault x) :
    x ∈ [.noWindow, .portReserved, .portAccess, .concurrent, .hostMemory] := by
  unfold hostStep at h
  split at h
  · cases h
  · exact List.mem_append_left [.hostMemory] (State.portWrite_fault h)
  · exact List.mem_append_left [.concurrent, .hostMemory] (State.portRead_fault h)
  · simp [State.waitStep_fault h]
  · simp [State.hostLoad_fault h]
  · simp [State.hostStore_fault h]
  · simp [State.hostLoad_fault h]
  · simp [State.hostLoad_fault h]
  · simp [State.hostStore_fault h]
  · simp [State.hostStore_fault h]
  · cases h

/-- The row of block `id` at `pos` raises the fault, with what it finds (R170). -/
inductive State.RowFaults (s : State) (id : Nat) (b : Block) : Position → Fault → Prop
  | clk (h : (s.engine b.e).clkProtected b.c = true) : s.RowFaults id b (.configure .c11) .protectedWrite
  | fmt (h : (s.engine b.e).fmtProtected b.m = true) : s.RowFaults id b (.configure .c12) .protectedWrite
  | read (h : s.ownedByOther b.e id = true) : s.RowFaults id b (.read .rd1) .sharedEngine
  | readBuf (h : s.ownedByOther b.e id = true) : s.RowFaults id b (.readBuf .q3) .sharedEngine
  | misaligned : s.RowFaults id b (.readBuf .q2) .bufMisaligned

theorem State.pollRow_fault {s : State} {id : Nat} {b : Block} {next : Position} {x : Fault}
    (h : s.pollRow id b next = .fault x) : x = .sharedEngine ∧ s.ownedByOther b.e id = true := by
  unfold State.pollRow at h
  split at h
  · split at h
    · next ho => cases h; exact ⟨rfl, ho⟩
    · cases h
  · cases h

/-- The rows that can fault are the protected writes, the polls and READ_BUF's check of its buffer (R170). -/
theorem rowStep_fault {s : State} {id : Nat} {b : Block} {pos : Position} {x : Fault}
    (h : rowStep pos id b s = .fault x) : s.RowFaults id b pos x := by
  cases pos with
  | configure row =>
    cases row <;> simp only [rowStep, configureRow] at h
    case c8 | c19 => split at h <;> cases h
    case c11 =>
      split at h
      · unfold clkRow at h
        split at h
        · next hprot => cases h; exact .clk hprot
        · cases h
      · cases h
    case c12 =>
      unfold fmtRow at h
      split at h
      · next hprot => cases h; exact .fmt hprot
      · cases h
    all_goals cases h
  | read row =>
    cases row with
    | rd1 => obtain ⟨rfl, ho⟩ := State.pollRow_fault h; exact .read ho
    | _ => cases h
  | readBuf row =>
    cases row with
    | q2 =>
      simp only [rowStep, readBufRow] at h
      split at h <;> cases h
      exact .misaligned
    | q3 => obtain ⟨rfl, ho⟩ := State.pollRow_fault h; exact .readBuf ho
    | _ => cases h
  | _ => cases h

/-! ## What the invariants exclude -/

theorem Engine.anyPending_of_none {en : Engine} (h : en.pending = CtrlFields.all none) :
    en.anyPending = false := by
  rw [Engine.anyPending, h]
  rfl

theorem Engine.clkProtected_eq_false_iff (en : Engine) (c : UnitIx) :
    en.clkProtected c = false ↔
      en.ctrl.cken.get c = false ∧ en.ctrl.enable = false ∧ en.anyPending = false := by
  simp [Engine.clkProtected, and_assoc]

theorem Engine.fmtProtected_eq_false_iff (en : Engine) (m : UnitIx) :
    en.fmtProtected m = false ↔
      en.ctrl.seren.get m = false ∧ en.ctrl.enable = false ∧ en.anyPending = false := by
  simp [Engine.fmtProtected, and_assoc]

/-- Between the disable phase and the enable phase the units are off and no write is pending, so nothing protects
`CLK` and `FMT` (R142). -/
theorem State.DisableInv.not_protected {s : State} (h : s.DisableInv) (ho : s.OwnershipInv) (hs : s.SyncInv)
    {id : Nat} {b : Block} {row : ConfigureRow} (hb : s.block? id = some b)
    (hp : b.seq = some (.configure row)) (h1 : 8 ≤ row.index) (h2 : row.index ≤ 13) :
    (s.engine b.e).clkProtected b.c = false ∧ (s.engine b.e).fmtProtected b.m = false := by
  obtain ⟨hser, hclk, hen⟩ := h id b row hb hp
  have hoff : b.offAt row .enable := .inr (.inr ⟨rfl, h1, by omega⟩)
  have hwaits : b.pendingAt (.configure row) = none := by
    cases row <;> simp [ConfigureRow.index] at h1 h2 <;> rfl
  have hquiet := Engine.anyPending_of_none <| hs.quiet ho hb
    (Block.holds_of_offAt ((ho.block hb).rowOk _ hp) hoff)
    fun pos hpos => by rw [hp] at hpos; cases hpos; exact hwaits
  have hen' := hen h1 (by omega)
  exact ⟨(Engine.clkProtected_eq_false_iff _ _).mpr ⟨hclk (by omega) (by omega), hen', hquiet⟩,
    (Engine.fmtProtected_eq_false_iff _ _).mpr ⟨hser (by omega) (by omega), hen', hquiet⟩⟩

/-- No other block owns the engine of a block that is out of `UNINIT` (R124). -/
theorem State.OwnershipInv.not_ownedByOther {s : State} (h : s.OwnershipInv) {id : Nat} {b : Block}
    (hb : s.block? id = some b) (hl : b.lifecycle ≠ .uninit) : s.ownedByOther b.e id = false := by
  simp [State.ownedByOther, (h.block hb).owner_iff.mpr (.inl hl)]

/-- With `CHECKED_READ` a poll stands in `RUNNING`, where the block has its engine (R8, R161). -/
theorem State.OwnershipInv.not_ownedByOther_at_poll {s : State} (h : s.OwnershipInv)
    (hc : s.params.checkedRead = true) {id : Nat} {b : Block} {pos : Position} (hb : s.block? id = some b)
    (hp : b.seq = some pos) (hpos : pos = .read .rd1 ∨ pos = .readBuf .q3) :
    s.ownedByOther b.e id = false := by
  have hok := (h.block hb).rowOk pos hp
  refine h.not_ownedByOther hb ?_
  rcases hpos with rfl | rfl <;> simp [Block.rowOk, hc] at hok <;> simp [hok]

/-- Settles O50, by the rows that raise either fault: the invariants exclude what they would have to find. -/
theorem faultsThatNeverArise : Obligations.FaultsThatNeverArise := by
  intro s ho
  refine ⟨fun hs hd h => ?_, fun hc h => ?_⟩ <;>
    rcases step_fault h with hf | ⟨id, b, pos, ⟨-, hb, hp⟩, hf⟩
  · simpa using hostStep_fault hf
  · cases rowStep_fault hf with
    | clk hprot => simp [(hd.not_protected ho hs hb hp (by decide) (by decide)).1] at hprot
    | fmt hprot => simp [(hd.not_protected ho hs hb hp (by decide) (by decide)).2] at hprot
  · simpa using hostStep_fault hf
  · cases rowStep_fault hf with
    | read hother => simp [ho.not_ownedByOther_at_poll hc hb hp (.inl rfl)] at hother
    | readBuf hother => simp [ho.not_ownedByOther_at_poll hc hb hp (.inr rfl)] at hother

/-- No serializer that is off is active (R43). -/
theorem State.rxActive_of_off {s : State} {e : Nat} {m : UnitIx} (h : (s.engine e).ctrl.seren.get m = false) :
    s.rxActive e m = false := by
  simp [State.rxActive, h]

/-- Settles O51: the serializer is off, so it is not active and its producer has no step. -/
theorem reprogrammingSilencesProducer : Obligations.ReprogrammingSilencesProducer := by
  intro s id b row h hturn hb hp h1 h2
  obtain ⟨hser, -⟩ := h id b row hb hp
  rw [step_of_producer hturn, producerStep_of_not_active (.inr (State.rxActive_of_off (hser h1 h2)))]

end Sys2Proof.Machine
end

section
/-! The rows of CONFIGURE one by one (R127 to R135): what they do, for the turn of one step. -/

namespace Sys2Proof.Machine

/-! ## Collaborator calls -/

section
variable {s : State} {op : CallOp}

theorem State.callOutcome_ok (hop : op.forcedFail s.params = false) (ha : s.answer.call = .ok) :
    s.callOutcome op = .ok := by
  simp [State.callOutcome, hop, ha]

/-- A call fails where it is forced to, or as drawn (R178). -/
theorem State.callOutcome_fail (h : s.answer.call = .fail ∨ op.forcedFail s.params = true) :
    s.callOutcome op = .fail := by
  rcases h with h | h <;> simp [State.callOutcome, h]

variable (id : Nat) (onOk onFail : Block)

@[simp] theorem State.callRow_trace :
    (s.callRow id op onOk onFail).trace = s.trace ++ [.call op (s.callOutcome op)] := by
  simp [State.callRow]

@[simp] theorem State.callRow_block? :
    (s.callRow id op onOk onFail).block? id = some ((s.callOutcome op).pick onOk onFail) := by
  simp [State.callRow]

@[simp] theorem State.callRow_gen (k : Nat) :
    (s.callRow id op onOk onFail).gen k = (s.afterCall op).gen k := rfl

@[simp] theorem State.callRow_route (e : Nat) (c : UnitIx) :
    (s.callRow id op onOk onFail).route e c = (s.afterCall op).route e c := rfl

end

section
variable {s : State} {k g e : Nat} {src : ClockSource} {c : UnitIx}

/-- An ok `GenConfigure` sets the generator's source and divisor (R178). -/
theorem State.afterCall_genConfigure_ok (h : s.callOutcome (.genConfigure k src g) = .ok) :
    (s.afterCall (.genConfigure k src g)).gen k = { s.gen k with src := src, div := g } := by
  simp [State.afterCall, State.callEffect, h]

/-- An ok `GenEnable` enables the generator (R178). -/
theorem State.afterCall_genEnable_ok (h : s.callOutcome (.genEnable k) = .ok) :
    (s.afterCall (.genEnable k)).gen k = { s.gen k with genEn := true } := by
  simp [State.afterCall, State.callEffect, h]

/-- An ok `GenConnect` routes the generator to the clock unit (R178). -/
theorem State.afterCall_genConnect_ok (h : s.callOutcome (.genConnect e c k) = .ok) :
    (s.afterCall (.genConnect e c k)).route e c = some k := by
  simp [State.afterCall, State.callEffect, h, State.route_setRoute]

end

/-! ## The divisor and the format -/

@[simp] theorem State.engine_wrClk_self (s : State) (e : Nat) (c : UnitIx) (v : Nat) :
    (s.wrClk e c v).engine e = { s.engine e with clk := (s.engine e).clk.set c v } := by
  simp [State.wrClk]

@[simp] theorem State.engine_wrFmt_self (s : State) (e : Nat) (m : UnitIx) (v : FrameFormat) :
    (s.wrFmt e m v).engine e = { s.engine e with fmt := (s.engine e).fmt.set m v } := by
  simp [State.wrFmt]

@[simp] theorem State.wrClk_trace (s : State) (e : Nat) (c : UnitIx) (v : Nat) :
    (s.wrClk e c v).trace = s.trace ++ [.wrClk e c v] := rfl

@[simp] theorem State.wrFmt_trace (s : State) (e : Nat) (m : UnitIx) (v : FrameFormat) :
    (s.wrFmt e m v).trace = s.trace ++ [.wrFmt e m v] := rfl

section
variable {s : State} {b : Block} (id : Nat)

theorem clkRow_of_protected (q : Nat) (h : (s.engine b.e).clkProtected b.c = true) :
    clkRow id b q s = .fault .protectedWrite := if_pos h

theorem clkRow_of_not_protected (q : Nat) (h : (s.engine b.e).clkProtected b.c = false) :
    clkRow id b q s = .next ((s.wrClk b.e b.c q).setBlock id (b.goto (.configure .c12))) :=
  if_neg (by simp [h])

theorem fmtRow_of_protected (st : Bool) (h : (s.engine b.e).fmtProtected b.m = true) :
    fmtRow st id b s = .fault .protectedWrite := if_pos h

theorem fmtRow_of_not_protected (st : Bool) (h : (s.engine b.e).fmtProtected b.m = false) :
    fmtRow st id b s = .next
      ((s.wrFmt b.e b.m (frameFormat s.params st b.c)).setBlock id (b.goto (.configure .c13))) :=
  if_neg (by simp [h])

end

/-! ## The rows that name the calculator's triple -/

section
variable {b : Block} {g q f : Nat} (st : Bool) (id : Nat) (s : State)

theorem configureRow_c8 (hr : b.work.r = .ok g q f) :
    configureRow st .c8 id b s =
      .next (s.callRow id (.genConfigure b.k.toNat .ref g) (b.goto (.configure .c9)) b.fatal) := by
  simp only [configureRow, hr]

theorem configureRow_c11 (hr : b.work.r = .ok g q f) : configureRow st .c11 id b s = clkRow id b q s := by
  simp only [configureRow, hr]

theorem configureRow_c19 (hr : b.work.r = .ok g q f) :
    configureRow st .c19 id b s = .next (s.setBlock id (b.commitConfigure g q f st)) := by
  simp only [configureRow, hr]

end

/-! ## The obligations about single rows -/

/-- Settles O22, by the two outcomes of C0's check. -/
theorem configureChecksState : Obligations.ConfigureChecksState := by
  intro s id b stereo hrow
  rw [exec_configure_row stereo hrow, configureRow]
  refine ⟨fun h => ?_, fun h => ?_⟩
  · rw [if_neg (by rcases h with h | h <;> simp [h])]
    rfl
  · rw [if_pos h]
    rfl

/-- Settles O24: the six writes and the six waits as any. -/
theorem configureSynchronisesEnables : Obligations.ConfigureSynchronisesEnables := by
  intro s id b stereo v f wrRow syncRow next hrows
  obtain ⟨hf, hwrite, hwait⟩ : f ≠ .swrst ∧
      configureRow stereo wrRow id b s = .next (s.ctrlRow id b f v (.configure syncRow)) ∧
      configureRow stereo syncRow id b s = .next (s.syncRow id b f (b.goto (.configure next)) b.fatal) := by
    rcases hrows with ⟨rfl, rfl, rfl, rfl, rfl⟩ | ⟨rfl, rfl, rfl, rfl, rfl⟩ | ⟨rfl, rfl, rfl, rfl, rfl⟩ |
      ⟨rfl, rfl, rfl, rfl, rfl⟩ | ⟨rfl, rfl, rfl, rfl, rfl⟩ | ⟨rfl, rfl, rfl, rfl, rfl⟩ <;>
      exact ⟨by simp, rfl, rfl⟩
  refine ⟨fun hrow => ⟨_, (exec_configure_row stereo hrow).trans hwrite, State.ctrlRow_spec v _⟩,
    fun hrow => ⟨_, (exec_configure_row stereo hrow).trans hwait, State.syncRow_owner .., ?_⟩⟩
  have hspec := fun w => State.syncRow_spec (s := s) (id := id) (b := b) hf w (b.goto (.configure next)) b.fatal
  obtain ⟨htrace, hothers, hok, htimeout⟩ := hspec v
  refine ⟨htrace, hothers, fun h => ?_, htimeout⟩
  obtain ⟨hblock, hbusy, -⟩ := hok h
  refine ⟨hblock, hbusy, fun w => ?_⟩
  obtain ⟨-, -, hok, -⟩ := hspec w
  obtain ⟨-, -, heffect⟩ := hok h
  exact heffect

/-- Settles O25: the three calls are forced by the same index, and an ok of each has its own effect. -/
theorem configureProgramsGenerator : Obligations.ConfigureProgramsGenerator := by
  intro s id b stereo g q fb op row next hr hrows hrow
  have hforced : op.forcedFail s.params = decide (s.params.gclkCount ≤ b.k.toNat) := by
    rcases hrows with ⟨rfl, -⟩ | ⟨rfl, -⟩ | ⟨rfl, -⟩ <;> rfl
  have hcall : configureRow stereo row id b s =
      .next (s.callRow id op (b.goto (.configure next)) b.fatal) := by
    rcases hrows with ⟨rfl, rfl, rfl⟩ | ⟨rfl, rfl, rfl⟩ | ⟨rfl, rfl, rfl⟩
    · exact configureRow_c8 stereo id s hr
    · rfl
    · rfl
  refine ⟨_, (exec_configure_row stereo hrow).trans hcall, fun ⟨ha, hk⟩ => ?_, fun h => ?_⟩
  · have hok : s.callOutcome op = .ok := State.callOutcome_ok (by simpa [hforced] using hk) ha
    refine ⟨by rw [State.callRow_block?, hok]; rfl, by rw [State.callRow_trace, hok], ?_⟩
    rcases hrows with ⟨rfl, rfl, rfl⟩ | ⟨rfl, rfl, rfl⟩ | ⟨rfl, rfl, rfl⟩
    · exact ⟨fun _ => State.afterCall_genConfigure_ok hok, nofun, nofun⟩
    · exact ⟨nofun, fun _ => State.afterCall_genEnable_ok hok, nofun⟩
    · exact ⟨nofun, nofun, fun _ => State.afterCall_genConnect_ok hok⟩
  · have hfail : s.callOutcome op = .fail := State.callOutcome_fail (by simpa [hforced] using h)
    exact ⟨by rw [State.callRow_block?, hfail]; rfl, by rw [State.callRow_trace, hfail]⟩

/-- Settles O26, by the two outcomes of either row's guard. -/
theorem configureWritesDivisorAndFormat : Obligations.ConfigureWritesDivisorAndFormat := by
  intro s id b stereo g q fb hr
  refine ⟨fun hrow => ?_, fun hrow => ?_⟩
  · rw [exec_configure_row stereo hrow, configureRow_c11 stereo id s hr]
    exact ⟨clkRow_of_protected id q, fun h => ⟨_, clkRow_of_not_protected id q h,
      State.block?_setBlock_self _ _ _, by simp, by simp⟩⟩
  · rw [exec_configure_row stereo hrow, configureRow]
    exact ⟨fmtRow_of_protected id stereo, fun h => ⟨_, frameFormat s.params stereo b.c,
      fmtRow_of_not_protected id stereo h, rfl, State.block?_setBlock_self _ _ _, by simp, by simp⟩⟩

/-- Settles O27: C19 is the commit. -/
theorem configureCommitsTogether : Obligations.ConfigureCommitsTogether := by
  intro s id b stereo g q f hrow hr
  rw [exec_configure_row stereo hrow, configureRow_c19 stereo id s hr]
  rfl

end Sys2Proof.Machine
end

section
/-! A whole run of CONFIGURE (R137, R139, R140): what its rows work on, and what each shape of row makes of it when
every draw is ok. -/

namespace Sys2Proof.Machine

/-! ## What the rows of CONFIGURE work on -/

/-- The registers of an engine that CONFIGURE's rows and the serializer's activity depend on (R33, R35, R36, R43). -/
structure Registers where
  ctrl : CtrlFields Bool
  pending : CtrlFields (Option Bool)
  clk : Pair Nat
  fmt : Pair FrameFormat

def Engine.registers (en : Engine) : Registers := ⟨en.ctrl, en.pending, en.clk, en.fmt⟩

/-- A `CTRL` field with another effective value. -/
def Registers.switch (r : Registers) (f : CtrlField) (x : Bool) : Registers := { r with ctrl := r.ctrl.set f x }

@[simp] theorem Registers.switch_ctrl (r : Registers) (f : CtrlField) (x : Bool) :
    (r.switch f x).ctrl = r.ctrl.set f x := rfl
@[simp] theorem Registers.switch_pending (r : Registers) (f : CtrlField) (x : Bool) :
    (r.switch f x).pending = r.pending := rfl

/-- What the events and the register writes of CONFIGURE depend on is as before: what construction bound, and the
stereo flag (R22, R127, R137). -/
structure Block.SameTarget (b b' : Block) : Prop where
  e : b'.e = b.e
  c : b'.c = b.c
  m : b'.m = b.m
  k : b'.k = b.k
  st : b'.work.st = b.work.st

theorem Block.SameTarget.trans {b b' b'' : Block} (h : b.SameTarget b') (h' : b'.SameTarget b'') :
    b.SameTarget b'' :=
  ⟨h'.e.trans h.e, h'.c.trans h.c, h'.m.trans h.m, h'.k.trans h.k, h'.st.trans h.st⟩

theorem Block.SameTarget.symm {b b' : Block} (h : b.SameTarget b') : b'.SameTarget b :=
  ⟨h.e.symm, h.c.symm, h.m.symm, h.k.symm, h.st.symm⟩

theorem Block.latchRate_sameTarget (b : Block) : b.SameTarget b.latchRate := ⟨rfl, rfl, rfl, rfl, rfl⟩

theorem Block.setCalc_sameTarget (b : Block) (r : CalcResult) : b.SameTarget (b.setCalc r) :=
  ⟨rfl, rfl, rfl, rfl, rfl⟩

theorem Block.goto_sameTarget (b : Block) (pos : Position) : b.SameTarget (b.goto pos) :=
  ⟨rfl, rfl, rfl, rfl, rfl⟩

theorem Block.commitConfigure_sameTarget (b : Block) (g q f : Nat) (st : Bool) :
    b.SameTarget (b.commitConfigure g q f st) := ⟨rfl, rfl, rfl, rfl, rfl⟩

/-- A block, its engine's registers, its generator and its clock unit's route. -/
structure Setup where
  params : Params
  block : Block
  registers : Registers
  gen : Generator
  route : Option Nat

/-- Block `id`, its engine, its generator and its route are those of `v`. -/
structure State.HasSetup (s : State) (id : Nat) (v : Setup) : Prop where
  params : s.params = v.params
  block : s.block? id = some v.block
  registers : (s.engine v.block.e).registers = v.registers
  gen : s.gen v.block.k.toNat = v.gen
  route : s.route v.block.e v.block.c = v.route

section
variable {s t : State} {id : Nat} {v : Setup} {b' : Block}

theorem State.HasSetup.setBlock (h : s.HasSetup id v) (hb : v.block.SameTarget b') :
    (s.setBlock id b').HasSetup id { v with block := b' } :=
  ⟨h.params, s.block?_setBlock_self id b', by simpa [hb.e] using h.registers, by simpa [hb.k] using h.gen,
    by simpa [hb.e, hb.c] using h.route⟩

/-- After an operation on the block's engine alone, and the block at its next row. -/
theorem State.HasSetup.engineRow {r : Registers} {next : Position} (h : s.HasSetup id v)
    (ht : s.EngineOnly t v.block.e) (hr : (t.engine v.block.e).registers = r) :
    (t.setBlock id (v.block.goto next)).HasSetup id { v with block := v.block.goto next, registers := r } :=
  State.HasSetup.setBlock (v := { v with registers := r })
    ⟨ht.params.trans h.params, (ht.block? id).trans h.block, hr, (ht.sameClocks.1 _).trans h.gen,
      (ht.sameClocks.2 _ _).trans h.route⟩ (v.block.goto_sameTarget next)

theorem State.HasSetup.afterCall {op : CallOp} {g : Generator} {r : Option Nat} (h : s.HasSetup id v)
    (hg : (s.afterCall op).gen v.block.k.toNat = g) (hr : (s.afterCall op).route v.block.e v.block.c = r) :
    (s.afterCall op).HasSetup id { v with gen := g, route := r } :=
  ⟨(s.afterCall_params op).trans h.params, (s.afterCall_block? op id).trans h.block,
    (congrArg Engine.registers (s.afterCall_engine op _)).trans h.registers, hg, hr⟩

/-! ## Runs of ok draws -/

/-- The `n` steps from `s`, with answers of `ok`, end in `t` with the turn kept and make the events `evs`. -/
structure State.OkSteps (s t : State) (id n : Nat) (evs : List Event) : Prop where
  run : Host.Core.run Sys2Proof.core n s = .next t
  turn : t.turn = .sequencer id
  script : ∀ k, s.okScript id (n + k) → t.okScript id k
  trace : t.trace = s.trace ++ evs

/-- With the turn and `n` answers of `ok`, the sequencer of block `id` takes every state that has the setup `v` to one
that has `v'`, and makes the events `evs`. -/
def Setup.Leads (v : Setup) (id n : Nat) (evs : List Event) (v' : Setup) : Prop :=
  ∀ s : State, s.turn = .sequencer id → s.okScript id n → s.HasSetup id v →
    ∃ t, s.OkSteps t id n evs ∧ t.HasSetup id v'

theorem State.okScript.mono {m n : Nat} (h : s.okScript id (m + n)) : s.okScript id m :=
  ⟨(Nat.le_add_right m n).trans h.1, fun a ha => h.2 a ((List.take_subset_take_left _ (Nat.le_add_right m n)) ha)⟩

/-- The next answer of an ok script, and the script after it. -/
theorem State.okScript.next {n : Nat} (h : s.okScript id (n + 1)) :
    s.answer.okFor id ∧ ∀ u : State, u.script = s.script.tail → u.okScript id n := by
  obtain ⟨hlen, hok⟩ := h
  unfold State.answer
  cases hs : s.script with
  | nil => simp [hs] at hlen
  | cons a l =>
    simp only [hs, List.length_cons, List.take_succ_cons, List.forall_mem_cons] at hlen hok
    exact ⟨hok.1, fun u hu => ⟨by rw [hu]; simpa using hlen, by rw [hu]; exact hok.2⟩⟩

end

section
variable {v v' v'' : Setup} {id m n : Nat} {evs evs' : List Event} {pos next : Position}

theorem Setup.Leads.trans (h : v.Leads id m evs v') (h' : v'.Leads id n evs' v'') :
    v.Leads id (m + n) (evs ++ evs') v'' := by
  intro s hturn hscript hset
  obtain ⟨t, ht, hset⟩ := h s hturn hscript.mono hset
  obtain ⟨u, hu, hset⟩ := h' t ht.turn (ht.script n hscript) hset
  refine ⟨u, ⟨(core_run_add n ht.run).trans hu.run, hu.turn, fun k hk => hu.script k (ht.script (n + k) ?_), ?_⟩,
    hset⟩
  · rwa [← Nat.add_assoc]
  · rw [hu.trace, ht.trace, List.append_assoc]

/-- One row, by the state in which it leaves every state that has the setup `v`. -/
theorem Setup.Leads.row (hp : v.block.seq = some pos)
    (hrow : ∀ s, s.answer.okFor id → s.HasSetup id v →
      ∃ u, rowStep pos id v.block s = .next u ∧ u.HasSetup id v' ∧ u.trace = s.trace ++ evs) :
    v.Leads id 1 evs v' := by
  intro s hturn hscript hset
  obtain ⟨hok, -⟩ := State.okScript.next (n := 0) hscript
  obtain ⟨u, hu, hset', htrace⟩ := hrow s hok hset
  have hstep : step s = .next u.nextAnswer := by
    rw [step_of_atRow ⟨hturn, hset.block, hp⟩, hu]; rfl
  obtain ⟨-, -, -, -, -, -, hs, hd, -, -⟩ := (rowStep_takes hu).sameElsewhere
  have hanswer : u.answer = s.answer := by rw [State.answer, State.answer, hs, hd]
  refine ⟨u.nextAnswer, ⟨core_run_succ 0 hstep, ?_, fun k hk => ?_, htrace⟩,
    ⟨hset'.params, hset'.block, hset'.registers, hset'.gen, hset'.route⟩⟩
  · rw [State.nextAnswer_turn, hanswer]
    exact hok.2.2
  · rw [Nat.add_comm] at hk
    exact hk.next.2 _ (by rw [State.nextAnswer_script, hs])

/-- A row that writes its block alone. -/
theorem Setup.Leads.blockOnly {b' : Block} (hp : v.block.seq = some pos)
    (hrow : ∀ s, s.HasSetup id v → rowStep pos id v.block s = .next (s.setBlock id b'))
    (hb : v.block.SameTarget b') : v.Leads id 1 [] { v with block := b' } :=
  .row hp fun s _ h => ⟨_, hrow s h, h.setBlock hb, by simp⟩

/-- A row that calls a collaborator, with what the ok call makes of the generator and of the route. -/
theorem Setup.Leads.call {op : CallOp} {onFail : Block} {g : Generator} {r : Option Nat}
    (hp : v.block.seq = some pos) (hop : op.forcedFail v.params = false)
    (hcall : ∀ s : State, s.HasSetup id v → s.callOutcome op = .ok →
      (s.afterCall op).gen v.block.k.toNat = g ∧ (s.afterCall op).route v.block.e v.block.c = r)
    (hrow : ∀ s, rowStep pos id v.block s = .next (s.callRow id op (v.block.goto next) onFail)) :
    v.Leads id 1 [.call op .ok] { v with block := v.block.goto next, gen := g, route := r } := by
  refine .row hp fun s ha h => ?_
  have hok : s.callOutcome op = .ok := State.callOutcome_ok (by rw [h.params, hop]) ha.2.1
  obtain ⟨hg, hr⟩ := hcall s h hok
  refine ⟨_, hrow s, ?_, by rw [State.callRow_trace, hok]⟩
  rw [State.callRow, hok]
  exact (h.afterCall hg hr).setBlock (v.block.goto_sameTarget next)

/-- A row that writes a `CTRL` field leaves the write pending (R33, R45). -/
theorem Setup.Leads.write {f : CtrlField} {x : Bool} (hp : v.block.seq = some pos)
    (hrow : ∀ s, rowStep pos id v.block s = .next (s.ctrlRow id v.block f x next)) :
    v.Leads id 1 [.wrCtrl v.block.e f x]
      { v with block := v.block.goto next,
               registers := { v.registers with pending := v.registers.pending.set f (some x) } } := by
  refine .row hp fun s _ h => ⟨_, hrow s, ?_, by simp⟩
  have hreg : ((s.wrCtrl v.block.e f x).engine v.block.e).registers =
      { v.registers with pending := v.registers.pending.set f (some x) } := by
    rw [← h.registers, State.engine_wrCtrl, if_pos rfl]
    rfl
  exact h.engineRow (s.wrCtrl_engineOnly v.block.e f x) hreg

/-- A row whose wait is ok makes the pending value effective (R46). -/
theorem Setup.Leads.wait {f : CtrlField} {x : Bool} {onTimeout : Block} (hp : v.block.seq = some pos)
    (hf : f ≠ .swrst) (hpend : v.registers.pending.get f = some x)
    (hrow : ∀ s, rowStep pos id v.block s = .next (s.syncRow id v.block f (v.block.goto next) onTimeout)) :
    v.Leads id 1 [.sync v.block.e f .ok]
      { v with block := v.block.goto next,
               registers := { v.registers.switch f x with pending := v.registers.pending.set f none } } := by
  refine .row hp fun s ha h => ⟨_, hrow s, ?_, by simp [ha.1]⟩
  have hreg : ((s.afterSync v.block.e f).engine v.block.e).registers =
      { v.registers.switch f x with pending := v.registers.pending.set f none } := by
    rw [← h.registers] at hpend ⊢
    have hpend' : (s.engine v.block.e).pending.get f = some x := hpend
    rw [State.afterSync_engine_self, ha.1, Engine.sync_ok, Engine.syncOk_of_ne _ _ _ hf, hpend']
    rfl
  rw [State.syncRow, State.syncOutcome, ha.1]
  exact h.engineRow (s.afterSync_engineOnly v.block.e f) hreg

/-- The two rows that switch a unit on or off: while no other write is pending the wait leaves none (R45, R130,
R134). -/
theorem Setup.Leads.switch {f : CtrlField} {x : Bool} {mid : Position} {onTimeout : Block}
    (hp : v.block.seq = some pos) (hf : f ≠ .swrst) (hq : v.registers.pending = CtrlFields.all none)
    (hwrite : ∀ s, rowStep pos id v.block s = .next (s.ctrlRow id v.block f x mid))
    (hwait : ∀ s, rowStep mid id (v.block.goto mid) s =
      .next (s.syncRow id (v.block.goto mid) f (v.block.goto next) onTimeout)) :
    v.Leads id 2 [.wrCtrl v.block.e f x, .sync v.block.e f .ok]
      { v with block := v.block.goto next, registers := v.registers.switch f x } := by
  have h := (Setup.Leads.write hp hwrite).trans (.wait (x := x) rfl hf (CtrlFields.get_set_self _ _ _) hwait)
  simp only [CtrlFields.set_set, hq, CtrlFields.all_set_self] at h
  rw [← hq] at h
  exact h

end

/-! ## The phases -/

/-- The same setup at another row, with other registers. -/
def Setup.move (v : Setup) (row : ConfigureRow) (r : Registers) : Setup :=
  { v with block := v.block.goto (.configure row), registers := r }

/-- The same setup with the generator programmed, enabled and routed (R131). -/
def Setup.clocked (v : Setup) (g : Nat) : Setup :=
  { v with gen := ⟨.ref, g, true⟩, route := some v.block.k.toNat }

/-- The registers with the units `c` and `m` and the engine off, as the disable phase leaves them (R130). -/
def Registers.unitsOff (r : Registers) (c m : UnitIx) : Registers :=
  ((r.switch (.seren m) false).switch (.cken c) false).switch .enable false

/-- The registers with the engine and the units `c` and `m` on, as the enable phase leaves them (R134). -/
def Registers.unitsOn (r : Registers) (c m : UnitIx) : Registers :=
  ((r.switch .enable true).switch (.cken c) true).switch (.seren m) true

/-- The registers with a divisor and a format written (R132, R133). -/
def Registers.program (r : Registers) (c m : UnitIx) (q : Nat) (fmt : FrameFormat) : Registers :=
  { r with clk := r.clk.set c q, fmt := r.fmt.set m fmt }

theorem Registers.unitsOff_ctrl (r : Registers) (c m : UnitIx) :
    (r.unitsOff c m).ctrl.seren.get m = false ∧ (r.unitsOff c m).ctrl.cken.get c = false ∧
      (r.unitsOff c m).ctrl.enable = false := by
  simp [Registers.unitsOff, CtrlFields.set]

theorem Registers.unitsOn_ctrl (r : Registers) (c m : UnitIx) :
    (r.unitsOn c m).ctrl.seren.get m = true ∧ (r.unitsOn c m).ctrl.cken.get c = true ∧
      (r.unitsOn c m).ctrl.enable = true := by
  simp [Registers.unitsOn, CtrlFields.set]

/-- The registers after a CONFIGURE (R130 to R134). -/
def Registers.configured (r : Registers) (c m : UnitIx) (q : Nat) (fmt : FrameFormat) : Registers :=
  ((r.unitsOff c m).program c m q fmt).unitsOn c m

theorem Registers.configured_clk (r : Registers) (c m : UnitIx) (q : Nat) (fmt : FrameFormat) :
    (r.configured c m q fmt).clk.get c = q := Pair.get_set_self _ _ _

theorem Registers.configured_fmt (r : Registers) (c m : UnitIx) (q : Nat) (fmt : FrameFormat) :
    (r.configured c m q fmt).fmt.get m = fmt := Pair.get_set_self _ _ _

theorem Registers.configured_ctrl (r : Registers) (c m : UnitIx) (q : Nat) (fmt : FrameFormat) :
    (r.configured c m q fmt).ctrl.seren.get m = true ∧ (r.configured c m q fmt).ctrl.cken.get c = true ∧
      (r.configured c m q fmt).ctrl.enable = true := Registers.unitsOn_ctrl _ c m

/-- The block that goes on from C1 with the calculator's result (R128, R129). -/
def Block.accepted (b : Block) (r : CalcResult) : Block := (b.latchRate.setCalc r).goto (.configure .c2)

theorem Block.accepted_sameTarget (b : Block) (r : CalcResult) : b.SameTarget (b.accepted r) :=
  (b.latchRate_sameTarget.trans (Block.setCalc_sameTarget _ r)).trans (Block.goto_sameTarget _ _)

theorem Block.SameTarget.configurePattern {b b' : Block} (h : b.SameTarget b') (p : Params) (g q : Nat) :
    configurePattern p b' b'.work.st g q = configurePattern p b b.work.st g q := by
  simp only [Machine.configurePattern, h.e, h.c, h.m, h.k, h.st]

section
variable {v : Setup} {id g q f : Nat}

/-- C0 and C1 of an accepted rate (R128, R129). -/
theorem Setup.accept_leads (hp : v.block.seq = some (.configure .c0))
    (hl : v.block.lifecycle = .idle ∨ v.block.lifecycle = .running)
    (hcalc : calculate v.params v.block.argRate.toNat = .ok g q f) :
    v.Leads id 2 [] { v with block := v.block.accepted (.ok g q f) } := by
  have hlatch := v.block.latchRate_sameTarget.trans (Block.goto_sameTarget _ (.configure .c1))
  have h0 : v.Leads id 1 [] { v with block := v.block.latchRate.goto (.configure .c1) } :=
    .blockOnly hp (fun s _ => by simp only [rowStep, configureRow, if_pos hl]) hlatch
  refine h0.trans (.blockOnly (b' := v.block.accepted (.ok g q f)) rfl (fun s h => ?_)
    (hlatch.symm.trans (v.block.accepted_sameTarget _)))
  have hcalc' : calculate s.params v.block.argRate.toNat = .ok g q f := by rw [h.params]; exact hcalc
  exact congrArg Host.Outcome.next (calcRow_of_ok id hcalc')

/-- C2 to C7 (R130). -/
theorem Setup.disable_leads (hp : v.block.seq = some (.configure .c2))
    (hq : v.registers.pending = CtrlFields.all none) :
    v.Leads id 6
      [.wrCtrl v.block.e (.seren v.block.m) false, .sync v.block.e (.seren v.block.m) .ok,
        .wrCtrl v.block.e (.cken v.block.c) false, .sync v.block.e (.cken v.block.c) .ok,
        .wrCtrl v.block.e .enable false, .sync v.block.e .enable .ok]
      (v.move .c8 (v.registers.unitsOff v.block.c v.block.m)) := by
  have h23 : v.Leads id 2 _ (v.move .c4 (v.registers.switch (.seren v.block.m) false)) :=
    .switch hp (by simp) hq (fun _ => rfl) fun _ => rfl
  have h45 : ∀ r, r.pending = CtrlFields.all none →
      (v.move .c4 r).Leads id 2 _ (v.move .c6 (r.switch (.cken v.block.c) false)) :=
    fun _ hq => .switch rfl (by simp) hq (fun _ => rfl) fun _ => rfl
  have h67 : ∀ r, r.pending = CtrlFields.all none →
      (v.move .c6 r).Leads id 2 _ (v.move .c8 (r.switch .enable false)) :=
    fun _ hq => .switch rfl (by simp) hq (fun _ => rfl) fun _ => rfl
  exact h23.trans ((h45 _ (by simpa using hq)).trans (h67 _ (by simpa using hq)))

/-- C13 to C18 (R134). -/
theorem Setup.enable_leads (hp : v.block.seq = some (.configure .c13))
    (hq : v.registers.pending = CtrlFields.all none) :
    v.Leads id 6
      [.wrCtrl v.block.e .enable true, .sync v.block.e .enable .ok,
        .wrCtrl v.block.e (.cken v.block.c) true, .sync v.block.e (.cken v.block.c) .ok,
        .wrCtrl v.block.e (.seren v.block.m) true, .sync v.block.e (.seren v.block.m) .ok]
      (v.move .c19 (v.registers.unitsOn v.block.c v.block.m)) := by
  have h1314 : v.Leads id 2 _ (v.move .c15 (v.registers.switch .enable true)) :=
    .switch hp (by simp) hq (fun _ => rfl) fun _ => rfl
  have h1516 : ∀ r, r.pending = CtrlFields.all none →
      (v.move .c15 r).Leads id 2 _ (v.move .c17 (r.switch (.cken v.block.c) true)) :=
    fun _ hq => .switch rfl (by simp) hq (fun _ => rfl) fun _ => rfl
  have h1718 : ∀ r, r.pending = CtrlFields.all none →
      (v.move .c17 r).Leads id 2 _ (v.move .c19 (r.switch (.seren v.block.m) true)) :=
    fun _ hq => .switch rfl (by simp) hq (fun _ => rfl) fun _ => rfl
  exact h1314.trans ((h1516 _ (by simpa using hq)).trans (h1718 _ (by simpa using hq)))

/-- C8 to C10 on a generator that exists (R131). -/
theorem Setup.generator_leads (hp : v.block.seq = some (.configure .c8)) (hr : v.block.work.r = .ok g q f)
    (hk : v.block.k.toNat < v.params.gclkCount) :
    v.Leads id 3
      [.call (.genConfigure v.block.k.toNat .ref g) .ok, .call (.genEnable v.block.k.toNat) .ok,
        .call (.genConnect v.block.e v.block.c v.block.k.toNat) .ok]
      ((v.clocked g).move .c11 v.registers) := by
  have hforced : decide (v.params.gclkCount ≤ v.block.k.toNat) = false := by simpa using hk
  have h8 : v.Leads id 1 [.call (.genConfigure v.block.k.toNat .ref g) .ok]
      { v.move .c9 v.registers with gen := { v.gen with src := .ref, div := g } } := by
    refine .call hp hforced (fun s h hok => ⟨?_, ?_⟩) fun s => configureRow_c8 v.block.work.st id s hr
    · rw [State.afterCall_genConfigure_ok hok, h.gen]
    · rw [s.afterCall_route _ _ _ (by simp), h.route]; rfl
  have h9 : ∀ x, Setup.Leads { v.move .c9 v.registers with gen := x } id 1
      [.call (.genEnable v.block.k.toNat) .ok]
      { v.move .c10 v.registers with gen := { x with genEn := true } } := by
    refine fun x => .call rfl hforced (fun s h hok => ⟨?_, ?_⟩) fun s => rfl
    · exact (State.afterCall_genEnable_ok hok).trans (by rw [show s.gen v.block.k.toNat = x from h.gen])
    · rw [s.afterCall_route _ _ _ (by simp), h.route]; rfl
  have h10 : ∀ x, Setup.Leads { v.move .c10 v.registers with gen := x } id 1
      [.call (.genConnect v.block.e v.block.c v.block.k.toNat) .ok]
      { v.move .c11 v.registers with gen := x, route := some v.block.k.toNat } := by
    refine fun x => .call rfl hforced (fun s h hok => ⟨?_, ?_⟩) fun s => rfl
    · rw [s.afterCall_gen _ _ (by simp) (by simp), h.gen]
    · exact State.afterCall_genConnect_ok hok
  exact h8.trans ((h9 _).trans (h10 _))

/-- C11 while the clock unit and the engine are off (R132, R142). -/
theorem Setup.clk_leads (hp : v.block.seq = some (.configure .c11)) (hr : v.block.work.r = .ok g q f)
    (hq : v.registers.pending = CtrlFields.all none) (hclk : v.registers.ctrl.cken.get v.block.c = false)
    (hen : v.registers.ctrl.enable = false) :
    v.Leads id 1 [.wrClk v.block.e v.block.c q]
      (v.move .c12 { v.registers with clk := v.registers.clk.set v.block.c q }) := by
  refine .row hp fun s _ h => ⟨_, (configureRow_c11 v.block.work.st id s hr).trans
    (clkRow_of_not_protected id q ?_), ?_, by simp⟩
  · rw [← h.registers] at hq hclk hen
    exact (Engine.clkProtected_eq_false_iff _ _).mpr ⟨hclk, hen, Engine.anyPending_of_none hq⟩
  · refine h.engineRow (s.wrClk_engineOnly v.block.e v.block.c q) ?_
    rw [State.engine_wrClk_self, ← h.registers]
    rfl

/-- C12 while the serializer and the engine are off (R133, R142). -/
theorem Setup.fmt_leads (hp : v.block.seq = some (.configure .c12))
    (hq : v.registers.pending = CtrlFields.all none) (hser : v.registers.ctrl.seren.get v.block.m = false)
    (hen : v.registers.ctrl.enable = false) :
    v.Leads id 1 [.wrFmt v.block.e v.block.m (frameFormat v.params v.block.work.st v.block.c)]
      (v.move .c13 { v.registers with
        fmt := v.registers.fmt.set v.block.m (frameFormat v.params v.block.work.st v.block.c) }) := by
  refine .row hp fun s _ h => ⟨_, fmtRow_of_not_protected id v.block.work.st ?_, ?_, by simp [h.params]⟩
  · rw [← h.registers] at hq hser hen
    exact (Engine.fmtProtected_eq_false_iff _ _).mpr ⟨hser, hen, Engine.anyPending_of_none hq⟩
  · refine h.engineRow (s.wrFmt_engineOnly v.block.e v.block.m _) ?_
    rw [State.engine_wrFmt_self, h.params, ← h.registers]
    rfl

end

/-! ## The whole command -/

section
variable {v : Setup} {id g q f : Nat}

/-- What C2 to C19 leave of a setup whose calculator's triple is `(g, q, f)` (R130 to R135). -/
def Setup.programmed (v : Setup) (g q f : Nat) : Setup :=
  { v.clocked g with
    block := v.block.commitConfigure g q f v.block.work.st
    registers := v.registers.configured v.block.c v.block.m q (frameFormat v.params v.block.work.st v.block.c) }

/-- C2 to C19 on a generator that exists (R130 to R135, R137). -/
theorem Setup.program_leads (hp : v.block.seq = some (.configure .c2)) (hr : v.block.work.r = .ok g q f)
    (hk : v.block.k.toNat < v.params.gclkCount) (hq : v.registers.pending = CtrlFields.all none) :
    v.Leads id 18 (configurePattern v.params v.block v.block.work.st g q)
      (v.programmed g q f) := by
  obtain ⟨hser, hclk, hen⟩ := v.registers.unitsOff_ctrl v.block.c v.block.m
  have hdisable := Setup.disable_leads (id := id) hp hq
  have hgenerator := Setup.generator_leads (v := v.move .c8 (v.registers.unitsOff v.block.c v.block.m)) (id := id)
    rfl hr hk
  have hdivisor := Setup.clk_leads (v := (v.clocked g).move .c11 (v.registers.unitsOff v.block.c v.block.m))
    (id := id) rfl hr hq hclk hen
  have hformat := Setup.fmt_leads (v := (v.clocked g).move .c12 { v.registers.unitsOff v.block.c v.block.m with
    clk := (v.registers.unitsOff v.block.c v.block.m).clk.set v.block.c q }) (id := id) rfl hq hser hen
  have henable := Setup.enable_leads (v := (v.clocked g).move .c13
    ((v.registers.unitsOff v.block.c v.block.m).program v.block.c v.block.m q
      (frameFormat v.params v.block.work.st v.block.c))) (id := id) rfl hq
  have hcommit := Setup.Leads.blockOnly (v := (v.clocked g).move .c19 (v.registers.configured v.block.c v.block.m q
    (frameFormat v.params v.block.work.st v.block.c))) (id := id) rfl
    (fun s _ => configureRow_c19 v.block.work.st id s hr)
    ((v.block.goto_sameTarget (.configure .c19)).symm.trans (v.block.commitConfigure_sameTarget g q f _))
  exact hdisable.trans <| hgenerator.trans <| hdivisor.trans <| hformat.trans <| henable.trans hcommit

/-- A CONFIGURE of an accepted rate whose every draw is ok (R137, R139). -/
theorem Setup.configure_leads (hp : v.block.seq = some (.configure .c0))
    (hl : v.block.lifecycle = .idle ∨ v.block.lifecycle = .running)
    (hcalc : calculate v.params v.block.argRate.toNat = .ok g q f) (hk : v.block.k.toNat < v.params.gclkCount)
    (hq : v.registers.pending = CtrlFields.all none) :
    v.Leads id 20 (configurePattern v.params v.block v.block.work.st g q)
      (Setup.programmed { v with block := v.block.accepted (.ok g q f) } g q f) := by
  have htarget := v.block.accepted_sameTarget (.ok g q f)
  rw [← htarget.configurePattern]
  exact (Setup.accept_leads hp hl hcalc).trans
    (Setup.program_leads (v := { v with block := v.block.accepted (.ok g q f) }) rfl rfl (by rwa [htarget.k]) hq)

/-- What a programmed setup says of the platform, by the block that the command started with. -/
theorem State.HasSetup.of_programmed {t : State} {b : Block} (h : t.HasSetup id (v.programmed g q f))
    (hb : b.SameTarget v.block) :
    (t.engine b.e).registers = v.registers.configured b.c b.m q (frameFormat v.params b.work.st b.c) ∧
      t.gen b.k.toNat = ⟨.ref, g, true⟩ ∧ t.route b.e b.c = some b.k.toNat := by
  obtain ⟨-, -, hregisters, hgen, hroute⟩ := h
  have hcommit := hb.trans (v.block.commitConfigure_sameTarget g q f b.work.st)
  simp only [Setup.programmed, Setup.clocked, hcommit.e, hcommit.c, hcommit.k, hb.c, hb.m, hb.k, hb.st]
    at hregisters hgen hroute
  exact ⟨hregisters, hgen, hroute⟩

end

/-- A serializer is active where its units are on, its format is CONFIGURE's and its generator is enabled (R43). -/
theorem State.rxActive_of_configured {s : State} {e k : Nat} {m c : UnitIx} {p : Params} {st : Bool}
    (hen : (s.engine e).ctrl.enable = true) (hser : (s.engine e).ctrl.seren.get m = true)
    (hclk : (s.engine e).ctrl.cken.get c = true) (hfmt : (s.engine e).fmt.get m = frameFormat p st c)
    (hroute : s.route e c = some k) (hgen : (s.gen k).genEn = true) : s.rxActive e m = true := by
  simp [State.rxActive, hen, hser, hfmt, frameFormat, hclk, State.clockFed, hroute, hgen]

theorem Engine.pending_of_not_anyPending {en : Engine} (h : en.anyPending = false) :
    en.pending = CtrlFields.all none := by
  refine CtrlFields.ext_get fun f => ?_
  rw [CtrlFields.get_all, ← Option.not_isSome_iff_eq_none]
  intro hf
  rw [en.anyPending_iff.mpr ⟨f, hf⟩] at h
  cases h

/-- Settles O28: C0 to C19 as a chain of rows; the setup that they leave makes the serializer active. -/
theorem configureAllOkRun : Obligations.ConfigureAllOkRun := by
  rintro s id b g q f hlegal ⟨hturn, hb, hp⟩ hl hcalc hk hquiet hscript
  have hset : s.HasSetup id ⟨s.params, b, (s.engine b.e).registers, s.gen b.k.toNat, s.route b.e b.c⟩ :=
    ⟨rfl, hb, rfl, rfl, rfl⟩
  obtain ⟨t, ht, hset'⟩ := Setup.configure_leads hp hl hcalc hk (Engine.pending_of_not_anyPending hquiet)
    s hturn hscript hset
  obtain ⟨hregisters, hgen, hroute⟩ := hset'.of_programmed (b.accepted_sameTarget _)
  obtain ⟨-, -, hproduct, hclock, -, ⟨-, hrated⟩, -⟩ := calculatorOkProperties _ _ _ _ _ hlegal hcalc
  have hclk : (t.engine b.e).registers.clk.get b.c = q := by rw [hregisters, Registers.configured_clk]
  have hfmt : (t.engine b.e).registers.fmt.get b.m = frameFormat s.params b.work.st b.c := by
    rw [hregisters, Registers.configured_fmt]
  obtain ⟨hser, hcken, hen⟩ : (t.engine b.e).registers.ctrl.seren.get b.m = true ∧
      (t.engine b.e).registers.ctrl.cken.get b.c = true ∧ (t.engine b.e).registers.ctrl.enable = true := by
    rw [hregisters]
    exact Registers.configured_ctrl ..
  exact ⟨t, _, ht.run, ht.trace, hset'.block, rfl, rfl, rfl, rfl, rfl, rfl, rfl, rfl, rfl, hclock,
    by rw [hclock]; exact hproduct, hrated, hclk, hfmt, hgen, hroute,
    State.rxActive_of_configured hen hser hcken hfmt hroute (by rw [hgen])⟩

end Sys2Proof.Machine
end

section
/-! The rows of READ and of READ_BUF one by one (R146 to R154), and the poll of an `IDLE` block (R160). -/

namespace Sys2Proof.Machine

/-! ## READ -/

/-- At a row of READ, READ is that row. -/
theorem exec_read_row {s : State} {id : Nat} {b : Block} {row : ReadRow} (h : s.atRow id b (.read row)) :
    exec .read s = readRow row id b s := exec_row h rfl

/-- A data read clears the ready flag and changes nothing else of its engine (R63). -/
@[simp] theorem State.engine_rdData_self (s : State) (e : Nat) (m : UnitIx) :
    (s.rdData e m).engine e = { s.engine e with rxrdy := (s.engine e).rxrdy.set m false } := by
  simp [State.rdData]

/-- Settles O30, by what the poll finds: the flag at 0, or at 1 and then the engine's owner. -/
theorem readPollsReadyFlag : Obligations.ReadPollsReadyFlag := by
  intro s id b hrow
  rw [exec_read_row hrow]
  obtain ⟨hhold, hready⟩ := s.pollRow_cases id b (.read .rd2)
  refine ⟨hhold, fun hr => ?_⟩
  obtain ⟨hother, hgo⟩ := hready hr
  exact ⟨hother, fun ho => ⟨_, hgo ho, State.block?_setBlock_self _ _ _, rfl, rfl⟩⟩

/-- Settles O31: RD2 is the data read, and the block takes the word it returns. -/
theorem readTakesWordAndClearsFlag : Obligations.ReadTakesWordAndClearsFlag := by
  intro s id b hrow
  rw [exec_read_row hrow]
  exact ⟨_, _, rfl, rfl, State.block?_setBlock_self _ _ _, s.engine_rdData_self b.e b.m, rfl⟩

/-! ## READ_BUF -/

/-- At a row of READ_BUF, READ_BUF is that row. -/
theorem exec_readBuf_row {s : State} {id : Nat} {b : Block} {row : ReadBufRow}
    (h : s.atRow id b (.readBuf row)) : exec .readBuf s = readBufRow row id b s := exec_row h rfl

/-- Q0 refuses a null buffer, and a count that is not positive as a signed number (R150). -/
theorem Block.badBufArgs_iff (b : Block) :
    b.badBufArgs = true ↔ b.argBuf = 0 ∨ b.argCount.toInt ≤ 0 := by
  rw [Block.badBufArgs, Bool.or_eq_true, beq_iff_eq, decide_eq_true_iff]
  rfl

theorem readRefused_eq_false {s : State} {b : Block}
    (h : s.params.checkedRead = false ∨ b.lifecycle = .running) : readRefused s b = false := by
  rcases h with h | h <;> simp [readRefused, h]

/-- Settles O32, by the outcome of Q0's check of the arguments and of Q1's check of the state. -/
theorem readBufChecksArgumentsFirst : Obligations.ReadBufChecksArgumentsFirst := by
  intro s id b
  refine ⟨fun hrow => ?_, fun hrow => ?_⟩ <;> rw [exec_readBuf_row hrow, readBufRow] <;>
    refine ⟨fun h => ?_, fun h => ?_⟩
  · rw [if_pos (b.badBufArgs_iff.mpr h)]
    rfl
  · have hok : ¬ b.badBufArgs = true := by
      rw [b.badBufArgs_iff]
      rintro (hbuf | hcount)
      · exact h.1 hbuf
      · exact Int.not_le.mpr h.2 hcount
    rw [if_neg hok]
    rfl
  · rw [if_pos ((readRefused_iff s b).mpr h)]
    rfl
  · rw [readRefused_eq_false h]
    rfl

/-- Settles O33, by the alignment of the buffer. -/
theorem readBufFaultsOnMisalignedBuffer : Obligations.ReadBufFaultsOnMisalignedBuffer := by
  intro s id b hrow
  rw [exec_readBuf_row hrow, readBufRow]
  refine ⟨fun h => if_pos h, fun h => ?_⟩
  rw [if_neg (not_not.mpr h)]
  rfl

/-- Past Q1 a row of READ_BUF that ends the command does so as Q6, after the last word, with `E_NONE` (R154). -/
theorem rowBlock_readBuf_finishes {s : State} {b : Block} {row : ReadBufRow} (hp : b.seq = some (.readBuf row))
    (h0 : row ≠ .q0) (h1 : row ≠ .q1) (hn : (rowBlock s b (.readBuf row)).seq = none) :
    rowBlock s b (.readBuf row) = (b.setIndex (b.work.i + 1)).finish .none := by
  cases row with
  | q0 => exact absurd rfl h0
  | q1 => exact absurd rfl h1
  | q2 | q4 => cases hn
  | q3 | q5 =>
    simp only [rowBlock] at hn
    split at hn
    · cases hn
    · rw [hp] at hn; cases hn
  | q6 =>
    simp only [rowBlock] at hn ⊢
    split at hn
    · cases hn
    · next hlt => exact if_neg hlt

/-- Settles O36: the row that ends the command is Q6. -/
theorem readBufNeverFailsLate : Obligations.ReadBufNeverFailsLate := by
  intro s t id b b' row hrow h0 h1 h hb' hn
  rw [exec_row (i := .readBuf) hrow rfl] at h
  obtain ⟨-, hb, hp⟩ := hrow
  rw [rowStep_block? hb h, if_pos rfl] at hb'
  cases hb'
  rw [rowBlock_readBuf_finishes hp h0 h1 hn]
  exact ⟨rfl, rfl⟩

/-! ## The host and a busy block -/

/-- While a command executes, a port write that is no fault is one of a read-only register, and changes nothing
(R25, R55, R79). -/
theorem Block.writePort_of_busy {b b' : Block} {r : PortReg} {v : Word} (hbusy : b.busy = true)
    (h : b.writePort r v = some b') : b' = b := by
  cases r <;> simp only [Block.writePort, hbusy, if_true] at h <;> cases h
  all_goals rfl

section
variable {s u : State} {id : Nat} {b : Block}

theorem State.portWrite_block?_of_busy {port width : Nat} {off : BitVec 6} {v : Word} (hb : s.block? id = some b)
    (hbusy : b.busy = true) (h : s.portWrite port width off v = .next u) : u.block? id = some b := by
  unfold State.portWrite at h
  split at h
  · cases h
  · next c hc =>
    split at h
    · cases h
    · cases h
    · split at h
      · cases h
      · next c' hw =>
        cases h
        rw [State.block?_setBlock]
        split
        · next hid =>
          subst hid
          cases hb.symm.trans hc
          rw [Block.writePort_of_busy hbusy hw]
        · exact hb

theorem State.portRead_blocks {port width : Nat} {off : BitVec 6} (h : s.portRead port width off = .next u) :
    u.blocks = s.blocks := by
  unfold State.portRead at h
  split at h
  · cases h
  · split at h <;> cases h
    rfl

theorem State.waitStep_blocks {port : Nat} {rest : List HostOp} (h : s.waitStep port rest = .next u) :
    u.blocks = s.blocks := by
  unfold State.waitStep at h
  split at h
  · cases h
  · split at h <;> cases h <;> rfl

/-- No host step changes a block that executes a command (R79). -/
theorem hostStep_block?_of_busy (hb : s.block? id = some b) (hbusy : b.busy = true)
    (hfresh : s.block? s.nextId = none) (h : hostStep s = .next u) : u.block? id = some b := by
  unfold hostStep at h
  split at h
  · cases h; exact hb
  · next rest _ => exact State.portWrite_block?_of_busy (s := { s with program := rest }) hb hbusy h
  · rw [State.block?, State.portRead_blocks h]; exact hb
  · rw [State.block?, State.waitStep_blocks h]; exact hb
  · obtain ⟨-, rfl⟩ := State.hostLoad_next h; exact hb
  · obtain ⟨-, rfl⟩ := State.hostStore_next h; exact hb
  · obtain ⟨-, rfl⟩ := State.hostLoad_next h; exact hb
  · obtain ⟨-, rfl⟩ := State.hostLoad_next h; exact hb
  · obtain ⟨-, rfl⟩ := State.hostStore_next h; exact hb
  · obtain ⟨-, rfl⟩ := State.hostStore_next h; exact hb
  · cases h
    have hid : id ≠ s.nextId := by
      rintro rfl
      rw [hfresh] at hb
      cases hb
    rw [State.block?_construct, if_neg hid]
    exact hb

end

/-! ## The poll of an `IDLE` block -/

/-- At a poll of an `IDLE` block the flag reads 0 and the engine is not enabled (R49, R160). -/
theorem State.IdleInv.at_poll {s : State} (h : s.IdleInv) {id : Nat} {b : Block} {pos : Position}
    (hb : s.block? id = some b) (hl : b.lifecycle = .idle) (hp : b.seq = some pos)
    (hpos : pos = .read .rd1 ∨ pos = .readBuf .q3) :
    s.ready b.e b.m = false ∧ (s.engine b.e).ctrl.enable = false := by
  have hclean := h.cleanFor hb <| (Block.engineClean_of_seq hp (by rcases hpos with rfl | rfl <;> simp)).mpr
    ⟨hl, by rcases hpos with rfl | rfl <;> rfl⟩
  refine ⟨?_, by rw [hclean.ctrl]; rfl⟩
  rw [State.ready, hclean.rxrdy]
  cases b.m <;> rfl

/-- A poll that reads 0 leaves its block where it is (R147). -/
theorem rowBlock_poll_of_not_ready {s : State} {b : Block} {pos : Position} (hr : s.ready b.e b.m = false)
    (hpos : pos = .read .rd1 ∨ pos = .readBuf .q3) : rowBlock s b pos = b := by
  rcases hpos with rfl | rfl <;> simp [rowBlock, hr]

/-- Settles O52: the poll reads 0, the serializer is not active, and nobody but its own sequencer writes a busy
block. -/
theorem idleReadHangs : Obligations.IdleReadHangs := by
  intro s t id b ho _ hi hb hl hseq
  obtain ⟨pos, hp, hpos⟩ : ∃ pos, b.seq = some pos ∧ (pos = .read .rd1 ∨ pos = .readBuf .q3) := by
    rcases hseq with h | h
    · exact ⟨_, h, .inl rfl⟩
    · exact ⟨_, h, .inr rfl⟩
  obtain ⟨hready, hen⟩ := hi.at_poll hb hl hp hpos
  refine ⟨?_, ?_, fun h => ?_⟩
  · simp only [State.enabled, State.sequencerEnabled, hb, hp]
    rcases hpos with rfl | rfl <;> exact hready
  · simp [State.enabled, State.rxActive_of_disabled hen]
  · rcases step_block h hb fun _ hj => ho.fresh hj with hsame | ⟨_, -, hturn, -⟩ | ⟨pos', -, hp', hblock⟩
    · exact hsame
    · rw [step_of_host hturn] at h
      obtain ⟨u, hu, rfl⟩ := advance_next h
      rw [State.block?_nextAnswer]
      exact hostStep_block?_of_busy hb (by simp [Block.busy, hp]) (ho.fresh (Nat.le_refl _)) hu
    · cases hp.symm.trans hp'
      rwa [rowBlock_poll_of_not_ready hready hpos] at hblock

end Sys2Proof.Machine
end

section
/-! A whole READ_BUF with one delivery before each word (R153, R163): what its rows and the producer work on, the
five steps of one word, and the words in host memory. -/

namespace Sys2Proof.Machine

/-! ## Words in host memory -/

/-- Store words one after the other from `base` on (R153). -/
def Memory.writeWords (m : Memory) (en : Endian) (base : Nat) : List Word → Memory
  | [] => m
  | w :: ws => (m.writeWord en base w).writeWords en (base + 4) ws

theorem Memory.at?_writeWords_of_outside {en : Endian} {ws : List Word} {m : Memory} {base x : Nat}
    (hx : x < base ∨ base + 4 * ws.length ≤ x) : Table.at? (m.writeWords en base ws) x = Table.at? m x := by
  induction ws generalizing m base with
  | nil => rfl
  | cons w ws ih =>
    rw [List.length_cons] at hx
    rw [Memory.writeWords, ih (by omega), Memory.at?_writeWord, if_neg (by omega)]

section
variable {s t : State} {m : Memory} {base : Nat} {ws : List Word}

theorem State.readByte_of_writeWords (h : t.buf = s.buf.writeWords t.params.hostEndian base ws) {x : Nat}
    (hx : x < base ∨ base + 4 * ws.length ≤ x) : t.readByte x = s.readByte x := by
  rw [State.readByte, h, Memory.at?_writeWords_of_outside hx, State.readByte]

/-- Each of the words stored one after the other is read back from its own place. -/
theorem State.readWord_of_writeWords (h : t.buf = m.writeWords t.params.hostEndian base ws) {j : Nat} {w : Word}
    (hj : ws[j]? = some w) : t.readWord (base + 4 * j) = w := by
  induction ws generalizing m base j with
  | nil => simp at hj
  | cons v ws ih =>
    cases j with
    | zero =>
      obtain rfl : v = w := by simpa using hj
      have hfirst : ∀ x, x < base + 4 → t.readByte x = ((t.setBuf m).memWrite base v).readByte x := fun x hx =>
        State.readByte_of_writeWords (s := (t.setBuf m).memWrite base v) h (.inl hx)
      rw [← (t.setBuf m).readWord_memWrite_self base v, State.readWord, State.readWord]
      simp only [Nat.mul_zero, Nat.add_zero]
      rw [hfirst _ (by omega), hfirst _ (by omega), hfirst _ (by omega), hfirst _ (by omega)]
      rfl
    | succ j =>
      rw [show base + 4 * (j + 1) = base + 4 + 4 * j by omega]
      exact ih h (by simpa using hj)

end

/-! ## What the rows and the producer work on -/

theorem Table.mem_of_at? {α : Type} {t : List (Nat × α)} {i : Nat} {a : α} (h : Table.at? t i = some a) :
    (i, a) ∈ t := by
  induction t with
  | nil => cases h
  | cons x t ih =>
    obtain ⟨k, v⟩ := x
    rw [Table.at?] at h
    split at h
    · next hk => cases h; subst hk; exact List.mem_cons_self
    · exact List.mem_cons_of_mem _ (ih h)

/-- Which stores are admitted depends on a block by its PORT base alone (R53, R57). -/
theorem State.memOk_setBlock {s : State} {id a : Nat} {b b' : Block} (hb : s.block? id = some b)
    (hbase : b'.portBase = b.portBase) (h : s.memOk a = true) : (s.setBlock id b').memOk a = true := by
  simp only [State.memOk, State.accessOk, State.overlapsPort, Bool.and_eq_true, List.not_any_eq_all_not] at h ⊢
  obtain ⟨hadmits, hports⟩ := h
  refine ⟨hadmits, Table.all_put hports ?_⟩
  rw [hbase]
  exact List.all_eq_true.mp hports _ (Table.mem_of_at? hb)

/-- The engine, the serializer, the PORT base, the buffer and the count are as before. -/
structure Block.SameBuffer (b b' : Block) : Prop where
  e : b'.e = b.e
  m : b'.m = b.m
  portBase : b'.portBase = b.portBase
  buf : b'.work.buf = b.work.buf
  n : b'.work.n = b.work.n

/-- What READ_BUF's rows and the producer work on: a block, host memory, whose turn it is, and the answers given in
advance. -/
structure Intake where
  params : Params
  block : Block
  buf : Memory
  turn : Agent
  script : List Answer

/-- Block `id`, host memory, the turn and the answers are those of `v`; the block owns its engine, its serializer is
active, and every word of its buffer is admitted. -/
structure State.TakesIn (s : State) (id : Nat) (v : Intake) : Prop where
  params : s.params = v.params
  block : s.block? id = some v.block
  buf : s.buf = v.buf
  turn : s.turn = v.turn
  script : s.script = v.script
  engine : v.block.e < v.params.nEngines
  owner : s.owner v.block.e = some id
  active : s.rxActive v.block.e v.block.m = true
  room : ∀ j : Nat, (j : Int) < v.block.work.n → s.memOk (bufAddr v.block.work.buf j) = true

section
variable {s t : State} {id : Nat} {v : Intake} {b : Block} {a : Answer} {as : List Answer}

theorem State.TakesIn.setBlock (h : s.TakesIn id v) (hb : v.block.SameBuffer b) :
    (s.setBlock id b).TakesIn id { v with block := b } where
  params := h.params
  block := State.block?_setBlock_self _ _ _
  buf := h.buf
  turn := h.turn
  script := h.script
  engine := by rw [hb.e]; exact h.engine
  owner := by rw [hb.e]; exact h.owner
  active := by rw [hb.e, hb.m]; exact h.active
  room := fun j hj => by
    rw [hb.n] at hj
    rw [hb.buf]
    exact State.memOk_setBlock h.block hb.portBase (h.room j hj)

theorem State.TakesIn.log (h : s.TakesIn id v) (ev : Event) : (s.log ev).TakesIn id v :=
  ⟨h.params, h.block, h.buf, h.turn, h.script, h.engine, h.owner, h.active, h.room⟩

/-- An operation on the engine that keeps `CTRL` and the formats keeps the serializer active (R43). -/
theorem State.TakesIn.engineOnly (h : s.TakesIn id v) (hs : s.EngineOnly t v.block.e)
    (hctrl : (t.engine v.block.e).ctrl = (s.engine v.block.e).ctrl)
    (hfmt : (t.engine v.block.e).fmt = (s.engine v.block.e).fmt) : t.TakesIn id v where
  params := hs.params.trans h.params
  block := (hs.block? id).trans h.block
  buf := hs.buf.trans h.buf
  turn := hs.turn.trans h.turn
  script := hs.script.trans h.script
  engine := h.engine
  owner := (hs.owner _).trans h.owner
  active := by
    rw [← h.active]
    simp only [State.rxActive, hctrl, hfmt, State.clockFed, hs.sameClocks.1, hs.sameClocks.2]
  room := fun j hj => by
    rw [← h.room j hj]
    simp only [State.memOk, State.accessOk, State.admits, State.overlapsPort, hs.admitted, hs.blocks]

theorem State.TakesIn.memWrite (h : s.TakesIn id v) (x : Nat) (w : Word) :
    (s.memWrite x w).TakesIn id { v with buf := v.buf.writeWord v.params.hostEndian x w } :=
  ⟨h.params, h.block, by rw [← h.buf, ← h.params]; rfl, h.turn, h.script, h.engine, h.owner, h.active, h.room⟩

/-- The answer is used up, and the turn passes to the agent that it names. -/
theorem State.TakesIn.nextAnswer (h : s.TakesIn id v) (ha : v.script = a :: as) :
    s.nextAnswer.TakesIn id { v with turn := a.agent, script := as } := by
  have hs : s.script = a :: as := h.script.trans ha
  refine ⟨h.params, h.block, h.buf, ?_, ?_, h.engine, h.owner, h.active, h.room⟩
  · rw [State.nextAnswer_turn, State.answer, hs]
  · rw [State.nextAnswer_script, hs]; rfl

end

/-! ## The five steps of one word -/

section
variable {s u : State} {id : Nat} {p : Params} {b b' : Block} {mem mem' : Memory} {a : Answer} {as : List Answer}

/-- The producer's turn: its word is in the data register and the flag is set (R155). -/
theorem State.TakesIn.step_deliver (h : s.TakesIn id ⟨p, b, mem, .producer b.e b.m, a :: as⟩) :
    ∃ t, step s = .next t ∧ t.TakesIn id ⟨p, b, mem, a.agent, as⟩ ∧ t.ready b.e b.m = true ∧
      t.dataReg b.e b.m = a.word := by
  have hengine : b.e < s.params.nEngines := by rw [h.params]; exact h.engine
  have ha : s.answer = a := by rw [State.answer, h.script]
  have hdelivered := h.engineOnly (s.deliver_engineOnly b.e b.m a.word) (by simp) (by simp)
  refine ⟨(s.deliver b.e b.m a.word).nextAnswer, ?_, hdelivered.nextAnswer rfl, ?_, ?_⟩
  · rw [step_of_producer h.turn, producerStep_of_active hengine h.active, ha]
  · simp [State.ready]
  · simp [State.dataReg]

/-- The sequencer's turn at a row of READ_BUF. -/
theorem State.TakesIn.step_row {row : ReadBufRow} (h : s.TakesIn id ⟨p, b, mem, .sequencer id, a :: as⟩)
    (hp : b.seq = some (.readBuf row)) (hu : readBufRow row id b s = .next u)
    (h' : u.TakesIn id ⟨p, b', mem', .sequencer id, a :: as⟩) :
    step s = .next u.nextAnswer ∧ u.nextAnswer.TakesIn id ⟨p, b', mem', a.agent, as⟩ := by
  refine ⟨?_, h'.nextAnswer rfl⟩
  rw [step_of_atRow ⟨h.turn, h.block, hp⟩]
  exact congrArg advance hu

/-- Q3 passes where a word was delivered: the block owns the engine (R147, R161). -/
theorem State.TakesIn.step_poll (h : s.TakesIn id ⟨p, b, mem, .sequencer id, a :: as⟩)
    (hp : b.seq = some (.readBuf .q3)) (hr : s.ready b.e b.m = true) :
    ∃ t, step s = .next t ∧ t.TakesIn id ⟨p, b.goto (.readBuf .q4), mem, a.agent, as⟩ ∧
      t.dataReg b.e b.m = s.dataReg b.e b.m := by
  have hgo := ((s.pollRow_cases id b (.readBuf .q4)).2 hr).2 (.inr h.owner)
  obtain ⟨hstep, ht⟩ := h.step_row hp hgo ((h.log _).setBlock ⟨rfl, rfl, rfl, rfl, rfl⟩)
  exact ⟨_, hstep, ht, rfl⟩

/-- Q4 takes the word (R148, R153). -/
theorem State.TakesIn.step_take (h : s.TakesIn id ⟨p, b, mem, .sequencer id, a :: as⟩)
    (hp : b.seq = some (.readBuf .q4)) {w : Word} (hw : s.dataReg b.e b.m = w) :
    ∃ t, step s = .next t ∧ t.TakesIn id ⟨p, (b.setReadWord w).goto (.readBuf .q5), mem, a.agent, as⟩ := by
  subst hw
  have hread := h.engineOnly (s.rdData_engineOnly b.e b.m) (by simp) (by simp)
  exact ⟨_, h.step_row hp rfl (hread.setBlock ⟨rfl, rfl, rfl, rfl, rfl⟩)⟩

/-- Q5 stores the word where it belongs, which is admitted (R57, R153). -/
theorem State.TakesIn.step_store (h : s.TakesIn id ⟨p, b, mem, .sequencer id, a :: as⟩)
    (hp : b.seq = some (.readBuf .q5)) (hi : (b.work.i : Int) < b.work.n) :
    ∃ t, step s = .next t ∧ t.TakesIn id ⟨p, b.goto (.readBuf .q6),
      mem.writeWord p.hostEndian b.storeAddr b.work.w, a.agent, as⟩ := by
  have hstore : readBufRow .q5 id b s =
      .next ((s.memWrite b.storeAddr b.work.w).setBlock id (b.goto (.readBuf .q6))) :=
    congrArg _ (storeRow_of_memOk (h.room b.work.i hi))
  exact ⟨_, h.step_row hp hstore ((h.memWrite _ _).setBlock ⟨rfl, rfl, rfl, rfl, rfl⟩)⟩

/-- The block after Q6: at the next word's poll, or finished after the last word (R153, R154). -/
def Block.endWord (b : Block) : Block :=
  if ((b.work.i + 1 : Nat) : Int) < b.work.n then (b.setIndex (b.work.i + 1)).goto (.readBuf .q3)
  else (b.setIndex (b.work.i + 1)).finish .none

theorem Block.endWord_sameBuffer (b : Block) : b.SameBuffer b.endWord := by
  unfold Block.endWord
  split <;> exact ⟨rfl, rfl, rfl, rfl, rfl⟩

/-- Where the block stands does not matter to what Q6 makes of it. -/
theorem Block.endWord_goto (b : Block) (pos : Position) : (b.goto pos).endWord = b.endWord := rfl

theorem State.TakesIn.step_loop (h : s.TakesIn id ⟨p, b, mem, .sequencer id, a :: as⟩)
    (hp : b.seq = some (.readBuf .q6)) :
    ∃ t, step s = .next t ∧ t.TakesIn id ⟨p, b.endWord, mem, a.agent, as⟩ := by
  exact ⟨_, h.step_row hp rfl (h.setBlock b.endWord_sameBuffer)⟩

end

/-- Answers for one word: the producer of serializer `m` of engine `e` delivers `w`, block `id` takes four steps, and
the turn is the producer's again. -/
def Answer.Feed (id e : Nat) (m : UnitIx) (w : Word) (as : List Answer) : Prop :=
  ∃ a0 a1 a2 a3 a4 : Answer, as = [a0, a1, a2, a3, a4] ∧ a0.word = w ∧ a0.agent = .sequencer id ∧
    a1.agent = .sequencer id ∧ a2.agent = .sequencer id ∧ a3.agent = .sequencer id ∧ a4.agent = .producer e m

section
variable {id : Nat} {p : Params} {rest : List Answer}

/-- One word from its delivery to its place in the buffer (R153). -/
theorem State.TakesIn.run_word {s : State} {b : Block} {mem : Memory} {w : Word} {as : List Answer}
    (h : s.TakesIn id ⟨p, b, mem, .producer b.e b.m, as ++ rest⟩) (hp : b.seq = some (.readBuf .q3))
    (hi : (b.work.i : Int) < b.work.n) (hfeed : Answer.Feed id b.e b.m w as) :
    ∃ t, Host.Core.run Sys2Proof.core 5 s = .next t ∧
      t.TakesIn id ⟨p, (b.setReadWord w).endWord, mem.writeWord p.hostEndian b.storeAddr w,
        .producer b.e b.m, rest⟩ := by
  obtain ⟨a0, a1, a2, a3, a4, rfl, rfl, t0, t1, t2, t3, t4⟩ := hfeed
  obtain ⟨s1, hstep0, h1, hready, hdata⟩ := h.step_deliver
  rw [t0] at h1
  obtain ⟨s2, hstep1, h2, hdata2⟩ := h1.step_poll hp hready
  rw [t1] at h2
  obtain ⟨s3, hstep2, h3⟩ := h2.step_take rfl (hdata2.trans hdata)
  rw [t2] at h3
  obtain ⟨s4, hstep3, h4⟩ := h3.step_store rfl hi
  rw [t3] at h4
  have hlast : s4.TakesIn id ⟨p, (b.setReadWord a0.word).goto (.readBuf .q6),
      mem.writeWord p.hostEndian b.storeAddr a0.word, .sequencer id, a4 :: rest⟩ := h4
  obtain ⟨s5, hstep4, h5⟩ := hlast.step_loop rfl
  rw [t4, Block.endWord_goto] at h5
  refine ⟨s5, ?_, h5⟩
  rw [core_run_succ 4 hstep0, core_run_succ 3 hstep1, core_run_succ 2 hstep2, core_run_succ 1 hstep3,
    core_run_succ 0 hstep4]
  rfl

/-- The command has finished `E_NONE`, with `RES_WORD` as it was (R153, R154). -/
structure Block.Completes (b b' : Block) : Prop where
  seq : b'.seq = none
  errCode : b'.errCode = .none
  result : b'.result = true
  resWord : b'.resWord = b.resWord

/-- The words that are left, from the poll of the first of them to the end of the command (R153, R154). -/
theorem State.TakesIn.run_words {script : Word → List Answer} {ws : List Word} {s : State} {b : Block}
    {mem : Memory} (h : s.TakesIn id ⟨p, b, mem, .producer b.e b.m, ws.flatMap script ++ rest⟩)
    (hfeed : ∀ w, Answer.Feed id b.e b.m w (script w)) (hp : b.seq = some (.readBuf .q3)) (hws : ws ≠ [])
    (hn : b.work.n = ((b.work.i + ws.length : Nat) : Int)) :
    ∃ t b', Host.Core.run Sys2Proof.core (5 * ws.length) s = .next t ∧
      t.TakesIn id ⟨p, b', mem.writeWords p.hostEndian b.storeAddr ws, .producer b.e b.m, rest⟩ ∧
      b.Completes b' := by
  induction ws generalizing s b mem with
  | nil => exact absurd rfl hws
  | cons w ws ih =>
    rw [List.flatMap_cons, List.append_assoc] at h
    rw [List.length_cons] at hn ⊢
    obtain ⟨t, hrun, ht⟩ := h.run_word hp (by omega) (hfeed w)
    rw [Nat.mul_succ, Nat.add_comm, core_run_add _ hrun]
    unfold Block.endWord at ht
    cases ws with
    | nil =>
      rw [if_neg (by simp [Block.setReadWord, hn])] at ht
      exact ⟨t, _, rfl, ht, ⟨rfl, rfl, rfl, rfl⟩⟩
    | cons w' ws' =>
      rw [if_pos (by simp [Block.setReadWord, hn])] at ht
      obtain ⟨t', b', hrun', ht', ⟨hseq, hcode, hres, hword⟩⟩ := ih ht hfeed rfl (by simp)
        (by simp [Block.setReadWord, Block.setIndex, Block.goto, hn]; omega)
      exact ⟨t', b', hrun', ht', ⟨hseq, hcode, hres, hword⟩⟩

end

/-- Settles O35: word by word, by induction on the words; host memory is then the words stored one after the
other. -/
theorem readBufFillsBufferInOrder : Obligations.ReadBufFillsBufferInOrder := by
  intro s id b ws rest script hturn hb hp hactive he ho hi hws hn hroom hfeed hscript
  have hstart : s.TakesIn id ⟨s.params, b, s.buf, .producer b.e b.m, ws.flatMap script ++ rest⟩ :=
    ⟨rfl, hb, rfl, hturn, hscript, he, ho, hactive, fun j hj => hroom j (Int.ofNat_lt.mp (hn ▸ hj))⟩
  obtain ⟨t, b', hrun, ht, hdone⟩ := hstart.run_words hfeed hp hws (by omega)
  have hbuf : t.buf = s.buf.writeWords t.params.hostEndian b.work.buf.toNat ws := by
    rw [ht.buf, ht.params, Block.storeAddr, hi]
    rfl
  exact ⟨t, b', hrun, ht.block, hdone.seq, hdone.errCode, hdone.result, hdone.resWord,
    fun _ _ hj => State.readWord_of_writeWords hbuf hj, fun _ ha => State.readByte_of_writeWords hbuf ha⟩

end Sys2Proof.Machine
end

section
/-! What a row makes of an `INDETERMINATE` block: only E9's commit gives it another lifecycle (R168). -/

namespace Sys2Proof.Machine

/-- A row of an `INDETERMINATE` block whose lifecycle check holds keeps it `INDETERMINATE`, but for E9: B10 is
reached in `UNINIT` only and C19 in `IDLE` or `RUNNING` only. -/
theorem Block.Moves.lifecycle_of_indeterminate {p : Params} {b b' : Block} {pos : Position}
    (h : b.Moves p pos b') (hok : b.rowOk p pos = true) (hl : b.lifecycle = .indeterminate) :
    b'.lifecycle = .indeterminate ∨ (pos = .end_ .e9 ∧ b'.lifecycle = .uninit) := by
  cases h with
  | hold _ => exact .inl hl
  | goto _ _ _ _ => exact .inl hl
  | finish _ _ _ _ => exact .inl hl
  | fatal _ => exact .inl rfl
  | commitBegin hpos =>
    subst hpos
    have huninit := Block.rowOk_begin (by decide) hok
    simp [hl] at huninit
  | commitEnd hpos => exact .inr ⟨hpos, rfl⟩
  | commitConfigure _ _ _ hpos _ =>
    subst hpos
    have hset := Block.rowOk_configure (by decide) hok
    simp [hl] at hset

/-- Settles O54, by the three ways in which a step can change an existing block: a port write keeps the lifecycle,
and of the rows only E9 takes it out of `INDETERMINATE`. -/
theorem onlyEndLeavesIndeterminate : Obligations.OnlyEndLeavesIndeterminate := by
  intro s t id b b' h ho hb hb' hl hleft
  rcases step_block h hb fun _ hj => ho.fresh hj with hs | ⟨c, hs, -, hw⟩ | ⟨pos, hturn, hpos, hs⟩ <;>
    rw [hb'] at hs <;> cases hs
  · exact absurd hl hleft
  · exact absurd (hw.lifecycle.trans hl) hleft
  · obtain ⟨rfl, huninit⟩ := ((rowBlock_moves s b pos).lifecycle_of_indeterminate
      ((ho.block hb).rowOk pos hpos) hl).resolve_left hleft
    exact ⟨hturn, hpos, huninit⟩

end Sys2Proof.Machine
end
